-- ==== Sys2Proof/Word.lean ====
section
/-! DEFINITION. The word types of the NDG84 manual. -/

namespace Sys2Proof

/-- One byte of a frame or of a record. -/
abbrev Byte := BitVec 8

/-- A two-byte field: a period, a duration, a job number, a CRC, a link error counter. -/
abbrev Half := BitVec 16

/-- A four-byte field: the part time and the remaining times of replies. -/
abbrev Word := BitVec 32

/-- A channel CH0 to CH7, which always drives the output line of the same number. -/
abbrev Chan := Fin 8

/-- A sense line SNS0 to SNS7. -/
abbrev Line := Fin 8

/-- A carrier class K0 to K7. -/
abbrev Cls := Fin 8

/-- A carrier generator CG0 to CG2. -/
abbrev GenId := Fin 3

/-- A pattern id 0 to 31. -/
abbrev PatId := Fin 32

end Sys2Proof
end

