-- ==== Sys2Proof/Syntax.lean ====
section
/-! DEFINITION. The commands and events of the NDG84: one constructor of `Instr` for each row of spec/opcode_table.json.
The rows from IDENT to LINES are the catalogue's commands (R167 to R179), each with its payload fields as bytes, so that
every value a frame can carry is a term. The other rows are the part's events. -/

namespace Sys2Proof

/-- The bytes that a command frame carries before its payload and that the host chooses: the unit byte (R150) and the tag. -/
structure Via where
  unitByte : Byte
  tag : Byte
deriving DecidableEq, Repr

/-- A step record as it stands in a frame (R172): the kind and mark byte, the class byte and the duration. -/
structure RawStep where
  kindMark : Byte
  cls : Byte
  duration : Half
deriving DecidableEq, Repr

/-- The seven payload bytes of PAT_OPEN (R10). -/
structure OpenFields where
  id : Byte
  steps : Byte
  timeUnit : Byte
  loopStart : Byte
  repeats : Byte
  finalAction : Byte
  target : Byte
deriving DecidableEq, Repr

/-- The payload fields of CH_CONFIG (R99). -/
structure ConfigFields where
  channel : Byte
  polarity : Byte
  drive : Byte
  rest : Byte
  safe : Byte
  readback : Byte
  safeOnLease : Byte
  waitLimit : Half
deriving DecidableEq, Repr

/-- The payload fields of PLAY (R173). -/
structure PlayFields where
  channel : Byte
  pattern : Byte
  priority : Byte
  start : Byte
  line : Byte
  edge : Byte
  window : Half
  overrideFlag : Byte
  override : Byte
  flags : Byte
deriving DecidableEq, Repr

/-- A complete frame as the receiver keeps it (R151): the unit byte, the tag, the code, the payload and the CRC received. -/
structure Frame where
  unitByte : Byte
  tag : Byte
  code : Byte
  payload : List Byte
  crc : Half
deriving DecidableEq, Repr

/-- The commands and events of the part. A command carries the unit byte and the tag of its frame beside its fields.
An event carries what the outside supplies with it: pin levels, straps, a character or a frame. -/
inductive Instr where
  /-- IDENT (R177). -/
  | ident (v : Via)
  /-- STATUS (R178). -/
  | status (v : Via) (clear : Byte)
  /-- RESET (R179). -/
  | reset (v : Via) (scope : Byte)
  /-- LEASE (R140). -/
  | lease (v : Via) (period : Half)
  /-- RECOVER (R145). -/
  | recover (v : Via)
  /-- TIME (R124). -/
  | time (v : Via)
  /-- ATTN_CONFIG (R136). -/
  | attnConfig (v : Via) (enable threshold hold : Byte)
  /-- FETCH (R130). -/
  | fetch (v : Via) (k : Byte)
  /-- ACK (R132). -/
  | ack (v : Via) (batchTag : Byte)
  /-- PAT_OPEN (R11). -/
  | patOpen (v : Via) (p : OpenFields)
  /-- PAT_STEPS (R13). -/
  | patSteps (v : Via) (id first : Byte) (records : List RawStep)
  /-- PAT_SEAL (R14). -/
  | patSeal (v : Via) (id : Byte)
  /-- PAT_DISCARD (R15). -/
  | patDiscard (v : Via) (id : Byte)
  /-- PAT_DELETE (R18). -/
  | patDelete (v : Via) (id : Byte)
  /-- PAT_INFO (R19). -/
  | patInfo (v : Via) (id : Byte)
  /-- PAT_READ (R20). -/
  | patRead (v : Via) (id first count : Byte)
  /-- CAR_SET (R77). -/
  | carSet (v : Via) (cls : Byte) (period high : Half)
  /-- CAR_CLEAR (R78). -/
  | carClear (v : Via) (cls : Byte)
  /-- CAR_STATUS (R95). -/
  | carStatus (v : Via) (part : Byte)
  /-- CH_CONFIG (R99). -/
  | chConfig (v : Via) (p : ConfigFields)
  /-- CH_ENABLE (R102). -/
  | chEnable (v : Via) (mask : Byte)
  /-- CH_DISABLE without force (R103): the force position holds anything but 01H. -/
  | chDisable (v : Via) (mask force : Byte)
  /-- CH_DISABLE with force (R104): the force position holds 01H. -/
  | chDisableForce (v : Via) (mask : Byte)
  /-- PLAY (R29). -/
  | play (v : Via) (p : PlayFields)
  /-- CANCEL (R41). -/
  | cancel (v : Via) (channel : Byte) (job : Half)
  /-- STOP (R62). -/
  | stop (v : Via) (mask boundary flush : Byte)
  /-- HOLD (R70). -/
  | hold (v : Via) (mask : Byte)
  /-- RESUME (R75). -/
  | resume (v : Via) (mask : Byte)
  /-- GO (R34). -/
  | go (v : Via) (mask : Byte)
  /-- CLEAR_FAULT (R108). -/
  | clearFault (v : Via) (mask : Byte)
  /-- CH_STATUS (R46). -/
  | chStatus (v : Via) (channel : Byte)
  /-- SN_CONFIG (R117). -/
  | snConfig (v : Via) (line selection filter : Byte)
  /-- LINES (R109). -/
  | lines (v : Via)
  /-- HARDWARE_RESET (R165): the straps UA3..UA0 and RT1..RT0 and the sense pins, as they stand at the end of the reset. -/
  | hardwareReset (address : BitVec 4) (rate : BitVec 2) (sense : BitVec 8)
  /-- CHARACTER_RECEIVED (R151): the byte and whether its stop bit is high. -/
  | characterReceived (b : Byte) (stopHigh : Bool)
  /-- GAP_ABORT (R152). -/
  | gapAbort
  /-- FRAME_RECEIVED (R153). -/
  | frameReceived (f : Frame)
  /-- REPLY_END (R160), with the sense pins, which the first sample after a RESET ALL reads (R112). -/
  | replyEnd (sense : BitVec 8)
  /-- LOAD_TIMER_EXPIRY (R16). -/
  | loadTimerExpiry
  /-- TRIGGER_WINDOW_EXPIRY (R36). -/
  | triggerWindowExpiry (c : Chan)
  /-- STEP_END (R52). -/
  | stepEnd (c : Chan)
  /-- CYCLE_END (R80). -/
  | cycleEnd (g : GenId)
  /-- CARRIER_WAIT_EXPIRY (R85). -/
  | carrierWaitExpiry (c : Chan)
  /-- READBACK_SAMPLE (R105), with the level observed at the pin. -/
  | readbackSample (c : Chan) (observed : Bool)
  /-- SENSE_SAMPLE (R113), with the levels of SNS0 to SNS7, line n at bit n. -/
  | senseSample (levels : BitVec 8)
  /-- HOLD_AGE_REACHED (R135). -/
  | holdAgeReached
  /-- LEASE_EXPIRY (R142). -/
  | leaseExpiry
  /-- HIGH_PORTION_END (R100). -/
  | highPortionEnd (g : GenId)
  /-- START_BIT (R152). -/
  | startBit
deriving DecidableEq, Repr

end Sys2Proof
end

