-- ==== Sys2Proof/Decode.lean ====
section
/-! DEFINITION. Reading a row of spec/opcode_table.json from its bits. No row of the table gives bits: the part has no instruction
words, its commands arrive as frames, which Machine/Operands.lean reads and writes (R167 to R173). -/

namespace Sys2Proof

/-- The command that a table word spells: none, since no row of the table gives a pattern of bits. -/
def decodeTableWord (_nbits _w : Nat) : Option Instr :=
  none

end Sys2Proof
end

