-- ==== Sys2Proof/Config.lean ====
section
/-! DEFINITION. What the manual fixes for every part (the reference figures of section 0.7) and what it leaves open:
the free values, constants without a body, so that no proof can see what they are. -/

namespace Sys2Proof.Config

/-- Reference clocks in a microsecond: the reference clock is 8.000 MHz (section 0.7). -/
def clocksPerMicro : Nat := 8

/-- Reference clocks in a millisecond. -/
def clocksPerMilli : Nat := 8000

/-- The steps shared by all patterns (section 1.3). -/
def poolSteps : Nat := 512

/-- Free value (log 1). The order in which the part takes what one event or one moment leaves unordered: the manual says
"either may be taken first". It is applied to the counter `choices` of the state. -/
opaque freeOrder : Nat → Nat

/-- Free value (log 2). The levels at the pins SNS0 to SNS7 at a moment, which the board decides.
The argument is the model's clock; line n is bit n. -/
opaque sensePins : Nat → BitVec 8

/-- Free value (log 3). The levels at the pins OUT0 to OUT7 at a moment, which the driven states and the external
circuitry decide together. The first argument is the model's clock, the second lists the driven state codes of
OUT0 to OUT7 (R171); line n is bit n. -/
opaque outPins : Nat → List Nat → BitVec 8

/-- Free value (log 4). Whether a remaining time that is no whole number of microseconds is reported rounded up.
The argument is the remaining time in reference clocks. -/
opaque roundMicrosUp : Nat → Bool

end Sys2Proof.Config
end

