-- ==== Sys2Proof/Machine/State.lean ====
section
/-! DEFINITION. The state of the NDG84, block by block (section 0.2), and its value after a hardware reset.
Times that count with the reference clock are held in reference clocks of 125 ns; settings in milliseconds or in steps of
100 µs are held as the host wrote them. -/

namespace Sys2Proof.Machine

/-- The reasons for which the part stops with a fault. The manual gives none: every command and every event leads to a next
state. -/
inductive Fault
deriving DecidableEq, Repr

/-- The reasons for which a command or event has no meaning in the model. -/
inductive Refusal where
  /-- Raised by an arm of `exec` alone, for a row without a meaning; no row is without one, so it is never raised. Safe. -/
  | notModelled (mnemonic : String)
deriving DecidableEq, Repr

/-! ### PTAB: the pattern table (chapter 1) -/

/-- The time unit of a pattern's durations (R10). -/
inductive TimeUnit where
  | us1
  | us10
  | us100
  | ms1
deriving DecidableEq, Repr

/-- What a job does after its pattern's last pass (R7). -/
inductive FinalAction where
  | finish
  | chain (target : PatId)
deriving DecidableEq, Repr

/-- The kind of a step, with its class when it is a CARRIER step (R2). -/
inductive StepKind where
  | active
  | inactive
  | carrier (k : Cls)
  | rest
deriving DecidableEq, Repr

/-- A step record (R2). -/
structure Step where
  kind : StepKind
  duration : Half
  mark : Bool
deriving DecidableEq, Repr

/-- The header of a LOADING or READY entry (R1). -/
structure Header where
  /-- The declared steps n, 1 to 64. -/
  count : Nat
  timeUnit : TimeUnit
  /-- The loop start L, below n. -/
  loopStart : Nat
  /-- The repeat count r; 0 is endless. -/
  repeats : Byte
  final : FinalAction
deriving DecidableEq, Repr

/-- A pattern entry: its fields exist according to its state (R1). The loaded count of a LOADING entry is the length of its
step list. -/
inductive Entry where
  | free
  | loading (h : Header) (steps : List Step)
  | ready (h : Header) (steps : List Step) (refs : Nat)
deriving DecidableEq, Repr

/-- The load slot when it holds an id, with the time left on the load timer (R4). -/
structure Load where
  id : PatId
  remaining : Nat
deriving DecidableEq, Repr

/-- The pattern table. -/
structure PatternTable where
  entries : Vector Entry 32
  load : Option Load
deriving DecidableEq, Repr

/-! ### CH0 to CH7: the channel controllers (chapters 2, 3 and 5) -/

/-- The states of a channel (R22). -/
inductive ChState where
  | off
  | idle
  | armed
  | playing
  | carrierWait
  | held
  | safe
  | fault
deriving DecidableEq, Repr

/-- The edges that a SENSE start condition can name (R24). -/
inductive EdgeSel where
  | rise
  | fall
  | either
deriving DecidableEq, Repr

/-- A job's start condition (R24). -/
inductive StartCond where
  | now
  | sense (line : Line) (edge : EdgeSel)
  | go
deriving DecidableEq, Repr

/-- The flags of a job (R24). -/
structure JobFlags where
  preempt : Bool
  reportStart : Bool
  reportEnd : Bool
  marks : Bool
deriving DecidableEq, Repr

/-- A job record (R24). -/
structure Job where
  number : Half
  pattern : PatId
  priority : Fin 4
  start : StartCond
  /-- The trigger window in ms; 0 is unlimited. -/
  window : Half
  override : Option Byte
  flags : JobFlags
deriving DecidableEq, Repr

/-- The strengths of a stop (R63). -/
inductive StopWhen where
  | passEnd
  | stepEnd
  | now
deriving DecidableEq, Repr

/-- The outcomes that a stop or a preemption fixes in advance (R63, R68). -/
inductive FixedOutcome where
  | stopped
  | preempted
deriving DecidableEq, Repr

/-- A pending stop together with its fixed outcome: the two are present together or not at all (R49). -/
structure PendingStop where
  boundary : StopWhen
  outcome : FixedOutcome
deriving DecidableEq, Repr

/-- The step clock of an active job (section 3.1). -/
inductive StepClock where
  | running
  | frozen
  | notStarted
deriving DecidableEq, Repr

/-- A gate that is not closed (R86). -/
inductive Gate where
  | opening
  | opened
deriving DecidableEq, Repr

/-- A channel's link to a generator (section 3.1). -/
structure Attachment where
  gen : GenId
  gate : Gate
deriving DecidableEq, Repr

/-- An active job with its playing fields (R49). -/
structure Active where
  /-- The waiting record, its pattern id following the chains. -/
  job : Job
  stepIndex : Nat
  passes : Byte
  /-- The repeat in force. -/
  repeats : Byte
  /-- The time left in the current step, in reference clocks. -/
  remaining : Nat
  clock : StepClock
  stop : Option PendingStop
  attach : Option Attachment
  /-- Whether the readback sample of this entry of the step is still to be taken (R105). -/
  sampleDue : Bool
deriving DecidableEq, Repr

/-- The state a channel was held from (R74). -/
inductive HeldFrom where
  | idle
  | armed
  | playing
  | carrierWait
deriving DecidableEq, Repr

/-- Where the active job of a HELD channel stands (R74). -/
inductive ResumePoint where
  | inStep
  | inCarrier
  | atEntry
deriving DecidableEq, Repr

/-- The hold context of a HELD channel (R74). -/
structure HoldContext where
  heldFrom : HeldFrom
  resume : Option ResumePoint
deriving DecidableEq, Repr

/-- The safe level of a line (R98). -/
inductive SafeLevel where
  | released
  | inactive
  | active
deriving DecidableEq, Repr

/-- A channel's line configuration (R98). -/
structure LineConfig where
  activeLow : Bool
  openDrain : Bool
  restActive : Bool
  safeLevel : SafeLevel
  readback : Bool
  safeOnLease : Bool
  /-- The carrier wait limit in ms; 0 is unlimited. -/
  waitLimit : Byte
deriving DecidableEq, Repr

/-- The armed head of a channel: kept while the channel is ARMED and while it is HELD from ARMED (R35, R39). -/
structure ArmedHead where
  /-- The number of the armed head's job. -/
  number : Half
  /-- The time left on its trigger window, in reference clocks; none for a window of 0. -/
  window : Option Nat
  /-- Whether the job became the armed head at the present moment, so that an edge of this moment does not start it (R33). -/
  fresh : Bool
deriving DecidableEq, Repr

/-- One channel controller. -/
structure Channel where
  state : ChState
  config : LineConfig
  active : Option Active
  /-- The pending queue, the head first (R26). -/
  queue : List Job
  armed : Option ArmedHead
  hold : Option HoldContext
  /-- A hold request standing on an open carrier gate (R73). -/
  holdRequest : Bool
  /-- The channel's carrier-wait timer while it runs, in reference clocks (R85). -/
  waitTimer : Option Nat
deriving DecidableEq, Repr

/-! ### CARB: the carrier arbiter and the generators (chapter 4) -/

/-- A defined carrier class: its period and high time in reference clocks (R76). -/
structure CarrierClass where
  period : Nat
  high : Nat
deriving DecidableEq, Repr

/-- A generator (R79). `phase` counts reference clocks from the last cycle start; `high` says whether the high portion of the
cycle is in progress. The users of a generator are the channels whose attachment names it. -/
inductive Gen where
  | free
  | running (k : Cls) (phase : Nat) (high : Bool)
  | draining (k : Cls) (phase : Nat) (high : Bool)
deriving DecidableEq, Repr

/-- A place on the carrier wait list (R84). -/
structure Waiter where
  chan : Chan
  cls : Cls
deriving DecidableEq, Repr

/-- The carrier arbiter. -/
structure Carriers where
  classes : Vector (Option CarrierClass) 8
  gens : Vector Gen 3
  /-- The carrier wait list, the oldest place first. -/
  waitList : List Waiter
deriving DecidableEq, Repr

/-! ### OUT0 to OUT7: the output stage (chapter 5) -/

/-- The driven state of a pin (section 5, introduction). -/
inductive Driven where
  | low
  | high
  | released
deriving DecidableEq, Repr

/-! ### SNS0 to SNS7: the sense unit (chapter 6) -/

/-- A sense line's report selection (R111). -/
inductive Selection where
  | none
  | rise
  | fall
  | both
deriving DecidableEq, Repr

/-- A sense line's record (R111). -/
structure SenseLine where
  selection : Selection
  /-- The filter time F, in steps of 100 µs. -/
  filter : Byte
  raw : Bool
  filtered : Bool
  progress : Nat
deriving DecidableEq, Repr

/-- The sense unit: its lines and the reference clocks since the last sample of the grid (R112). -/
structure SenseUnit where
  lines : Vector SenseLine 8
  grid : Nat
deriving DecidableEq, Repr

/-! ### RPT: the report unit (chapter 7) -/

/-- The kinds of report record (R121). -/
inductive ReportKind where
  | started
  | mark
  | ended
  | dropped
  | sense
  | leaseExpired
  | loadAbandoned
  | outputsReset
  | overflow
deriving DecidableEq, Repr

/-- A report as its producer hands it to RPT, stamped with the part time of its event (R122, R123). -/
structure Report where
  kind : ReportKind
  time : Word
  source : Option (Fin 8)
  job : Half
  a : Byte
  b : Byte
deriving DecidableEq, Repr

/-- A record of the report queue: a report with its sequence number (R121, R125). -/
structure Record where
  report : Report
  sequence : Byte
deriving DecidableEq, Repr

/-- The outstanding batch: its tag and its size (R129). -/
structure Batch where
  tag : Byte
  size : Nat
deriving DecidableEq, Repr

/-- The report unit. -/
structure ReportUnit where
  /-- The report queue, the oldest record first. -/
  queue : List Record
  batch : Option Batch
  /-- The sequence counter. -/
  nextSequence : Byte
  partTime : Word
  /-- Reference clocks since the part time last went up, 0 to 7. -/
  subMicro : Nat
  enable : Bool
  threshold : Nat
  /-- The hold time in ms; 0 turns the age condition off. -/
  holdTime : Byte
  /-- Whether the oldest undelivered record has reached the hold age (R135). -/
  ageReached : Bool
  /-- Whether this part pulls ATTN_N low (R134). -/
  attention : Bool
deriving DecidableEq, Repr

/-! ### LEASE: the lease timer (chapter 8) -/

/-- The lease state, with the time left, in reference clocks, in RUNNING (R139). -/
inductive LeaseState where
  | off
  | running (remaining : Nat)
  | expired
deriving DecidableEq, Repr

/-- The lease timer: its period in ms and its state. -/
structure LeaseTimer where
  period : Nat
  state : LeaseState
deriving DecidableEq, Repr

/-! ### LINK: the host link (chapter 9) -/

/-- The receiver's state with what it has kept of the frame in reception (section 9.3). -/
inductive Receiver where
  | hunt
  | header (got : List Byte)
  | payload (unitByte tag code : Byte) (length : Nat) (got : List Byte)
  | check (unitByte tag code : Byte) (payload : List Byte) (crcHigh : Option Byte)
deriving DecidableEq, Repr

/-- The scopes of RESET (R179). -/
inductive Scope where
  | outputs
  | all
deriving DecidableEq, Repr

/-- A reply being sent: its bytes, the reset that takes effect at its end, if it is the reply of an executed RESET, and the
reference clocks since it began (R160). -/
structure Sending where
  bytes : List Byte
  reset : Option Scope
  elapsed : Nat
deriving DecidableEq, Repr

/-- The entry of the reply cache (R161). -/
structure CacheEntry where
  tag : Byte
  crc : Half
  reply : List Byte
deriving DecidableEq, Repr

/-- The link error counters (R155). -/
structure Counters where
  oversize : Half
  framing : Half
  gap : Half
  check : Half
  overrun : Half
deriving DecidableEq, Repr

/-- The host link. -/
structure HostLink where
  /-- The strap address UA3..UA0 (R148). -/
  address : BitVec 4
  /-- The line-rate straps RT1..RT0 (R149). -/
  rate : BitVec 2
  receiver : Receiver
  /-- The inter-byte gap being timed, in reference clocks (R152). -/
  gap : Option Nat
  /-- The reply on HTX; none while the transmitter is QUIET. -/
  sending : Option Sending
  /-- The pending-frame buffer. -/
  buffer : Option Frame
  cache : Option CacheEntry
  counters : Counters
deriving DecidableEq, Repr

/-! ### The whole part -/

/-- Who hands a report to RPT (R128): the reports of one producer in one event keep their order. -/
inductive Producer where
  | channel (c : Chan)
  | line (l : Line)
  | table
  | lease
  | unit
deriving DecidableEq, Repr

/-- The state of the part. -/
structure State where
  ptab : PatternTable
  chans : Vector Channel 8
  /-- The job-number counter (R25). -/
  nextJob : Half
  carb : Carriers
  /-- The driven state of each output line. -/
  outs : Vector Driven 8
  sense : SenseUnit
  rpt : ReportUnit
  lease : LeaseTimer
  link : HostLink
  /-- The model's own: the reports made in the event in progress, each with its producer; empty between events. -/
  outbox : List (Producer × Report)
  /-- The model's own: how many free orders have been drawn (log 1). -/
  choices : Nat
  /-- The model's own: the reference clocks counted so far, which tells the moments of the free pin levels apart (log 2, 3). -/
  clock : Nat
  /-- The commands and events that are waiting, first in, first out. -/
  pending : List Instr
deriving DecidableEq, Repr

/-! ### Reset values -/

/-- The default line configuration (section 5.1). -/
def LineConfig.default : LineConfig where
  activeLow := false
  openDrain := false
  restActive := false
  safeLevel := .released
  readback := false
  safeOnLease := true
  waitLimit := 0x00#8

/-- A channel without jobs, hold context and running timers. -/
def Channel.empty (state : ChState) (config : LineConfig) : Channel where
  state := state
  config := config
  active := none
  queue := []
  armed := none
  hold := none
  holdRequest := false
  waitTimer := none

/-- The pattern table after a hardware reset (R21). -/
def PatternTable.reset : PatternTable where
  entries := Vector.replicate 32 .free
  load := none

/-- The carrier arbiter after a hardware reset (R96). -/
def Carriers.reset : Carriers where
  classes := Vector.replicate 8 none
  gens := Vector.replicate 3 .free
  waitList := []

/-- A sense line after a hardware reset whose first sample read the given level (R114, R119). -/
def SenseLine.reset (level : Bool) : SenseLine where
  selection := .none
  filter := 0x00#8
  raw := level
  filtered := level
  progress := 0

/-- The sense unit after a hardware reset whose first sample read the given levels, line n at bit n (R119). -/
def SenseUnit.reset (levels : BitVec 8) : SenseUnit where
  lines := Vector.ofFn fun l => SenseLine.reset (levels.getLsbD l.val)
  grid := 0

/-- The report unit after a hardware reset (R137). -/
def ReportUnit.reset : ReportUnit where
  queue := []
  batch := none
  nextSequence := 0x00#8
  partTime := 0#32
  subMicro := 0
  enable := true
  threshold := 1
  holdTime := 0x00#8
  ageReached := false
  attention := false

/-- The lease timer after a hardware reset (R147). -/
def LeaseTimer.reset : LeaseTimer where
  period := 0
  state := .off

/-- The link error counters, all 0 (R155). -/
def Counters.zero : Counters where
  oversize := 0#16
  framing := 0#16
  gap := 0#16
  check := 0#16
  overrun := 0#16

/-- The host link after a hardware reset that sampled the given straps (R165). -/
def HostLink.reset (address : BitVec 4) (rate : BitVec 2) : HostLink where
  address := address
  rate := rate
  receiver := .hunt
  gap := none
  sending := none
  buffer := none
  cache := none
  counters := .zero

/-- The part right after a hardware reset with the given straps and sense pins (R165 and the reset rules it gathers). -/
def State.afterReset (address : BitVec 4) (rate : BitVec 2) (sense : BitVec 8) : State where
  ptab := .reset
  chans := Vector.replicate 8 (Channel.empty .off .default)
  nextJob := 1#16
  carb := .reset
  outs := Vector.replicate 8 .released
  sense := .reset sense
  rpt := .reset
  lease := .reset
  link := .reset address rate
  outbox := []
  choices := 0
  clock := 0
  pending := []

/-- The machine right after reset. DESIGN CHOICE (log 5, unsafe): the straps read 0 and every sense line reads low, which the
manual leaves to the board. -/
def State.reset : State :=
  State.afterReset 0#4 0#2 0x00#8

end Sys2Proof.Machine
end

