-- ==== Sys2Proof/Machine/Operands.lean ====
section
/-! DEFINITION. The layouts and coded values of chapter 10: how bytes are joined and split, the status codes, the codes of
section 10.3, the commands as the dispatcher reads them from a frame, and the CRC of section 9.2. -/

namespace Sys2Proof.Machine

/-! ### Bytes -/

/-- A number as one byte. -/
def byteOf (n : Nat) : Byte :=
  BitVec.ofNat 8 n

/-- Two bytes, most significant first (R167). -/
def halfBytes (h : Half) : List Byte :=
  [h.extractLsb' 8 8, h.extractLsb' 0 8]

/-- A number as a two-byte field. -/
def natBytes2 (n : Nat) : List Byte :=
  halfBytes (BitVec.ofNat 16 n)

/-- Four bytes, most significant first (R167). -/
def wordBytes (w : Word) : List Byte :=
  [w.extractLsb' 24 8, w.extractLsb' 16 8, w.extractLsb' 8 8, w.extractLsb' 0 8]

/-- The two-byte field sent as the given bytes, most significant first (R167). -/
def joinHalf (high low : Byte) : Half :=
  high ++ low

/-- An index below n held in a byte, if the byte is in range. -/
def index? (n : Nat) (b : Byte) : Option (Fin n) :=
  if h : b.toNat < n then some ⟨b.toNat, h⟩ else none

/-- An on/off or flag position: 00H or 01H (R171). -/
def flag? (b : Byte) : Option Bool :=
  if b = 0x00#8 then some false else if b = 0x01#8 then some true else none

/-- A flag as a byte (R171). -/
def flagByte (b : Bool) : Byte :=
  if b then 0x01#8 else 0x00#8

/-- The channels that a mask names, CH0 at 01H and CH7 at 80H (R167). -/
def maskChans (mask : Byte) : List Chan :=
  (List.finRange 8).filter fun c => mask.getLsbD c.val

/-- The mask of the channels with the given property (R167). -/
def maskOf (p : Chan → Bool) : Byte :=
  (List.finRange 8).foldl (fun m c => if p c then m ||| (0x01#8 <<< c.val) else m) 0x00#8

/-! ### Status codes (R168) -/

/-- The status codes. -/
inductive Status where
  | badCode
  | badLength
  | badField
  | badState
  | notFound
  | inUse
  | noRoom
  | queueFull
  | sequence
  | loadPending
  | safeState
deriving DecidableEq, Repr

/-- The status byte of an OK reply. -/
def statusOk : Byte := 0x00#8

/-- The status byte of a refusal. -/
def Status.code : Status → Byte
  | .badCode => 0x01#8
  | .badLength => 0x02#8
  | .badField => 0x03#8
  | .badState => 0x04#8
  | .notFound => 0x05#8
  | .inUse => 0x06#8
  | .noRoom => 0x07#8
  | .queueFull => 0x08#8
  | .sequence => 0x09#8
  | .loadPending => 0x0A#8
  | .safeState => 0x0B#8

/-! ### Coded values (R171) -/

/-- The byte that stands for no source and for an empty load slot. -/
def noneByte : Byte := 0xFF#8

/-- The time unit of a code. -/
def timeUnit? (b : Byte) : Option TimeUnit :=
  match b.toNat with
  | 0 => some .us1
  | 1 => some .us10
  | 2 => some .us100
  | 3 => some .ms1
  | _ => none

/-- The code of a time unit. -/
def TimeUnit.code : TimeUnit → Byte
  | .us1 => 0x00#8
  | .us10 => 0x01#8
  | .us100 => 0x02#8
  | .ms1 => 0x03#8

/-- A time unit in reference clocks. -/
def TimeUnit.clocks : TimeUnit → Nat
  | .us1 => Config.clocksPerMicro
  | .us10 => 10 * Config.clocksPerMicro
  | .us100 => 100 * Config.clocksPerMicro
  | .ms1 => Config.clocksPerMilli

/-- The final action and chain target of a PAT_OPEN (R10). -/
def finalAction? (action target : Byte) : Option FinalAction :=
  match action.toNat with
  | 0 => if target = 0x00#8 then some .finish else none
  | 1 => (index? 32 target).map .chain
  | _ => none

/-- The code of a final action. -/
def FinalAction.code : FinalAction → Byte
  | .finish => 0x00#8
  | .chain _ => 0x01#8

/-- The chain target position of a final action, 0 with END. -/
def FinalAction.targetByte : FinalAction → Byte
  | .finish => 0x00#8
  | .chain t => byteOf t.val

/-- The edge of a code in PLAY. -/
def edge? (b : Byte) : Option EdgeSel :=
  match b.toNat with
  | 1 => some .rise
  | 2 => some .fall
  | 3 => some .either
  | _ => none

/-- The code of an edge in PLAY. -/
def EdgeSel.code : EdgeSel → Nat
  | .rise => 1
  | .fall => 2
  | .either => 3

/-- The code of a start condition (PLAY, and b of STARTED). -/
def StartCond.code : StartCond → Byte
  | .now => 0x00#8
  | .sense _ _ => 0x01#8
  | .go => 0x02#8

/-- The strength of a STOP's when code. -/
def stopWhen? (b : Byte) : Option StopWhen :=
  match b.toNat with
  | 1 => some .passEnd
  | 2 => some .stepEnd
  | 3 => some .now
  | _ => none

/-- The when code of a stop. -/
def StopWhen.code : StopWhen → Nat
  | .passEnd => 1
  | .stepEnd => 2
  | .now => 3

/-- The code of a channel state. -/
def ChState.code : ChState → Nat
  | .off => 0
  | .idle => 1
  | .armed => 2
  | .playing => 3
  | .carrierWait => 4
  | .held => 5
  | .safe => 6
  | .fault => 7

/-- The channel state that a held-from value names. -/
def HeldFrom.state : HeldFrom → ChState
  | .idle => .idle
  | .armed => .armed
  | .playing => .playing
  | .carrierWait => .carrierWait

/-- The outcomes of an active job (section 3.5). -/
inductive JobOutcome where
  | completed
  | stopped
  | preempted
  | carrierTimeout
  | noCarrierClass
  | chainMissing
  /-- With the expected and the observed level of the mismatch. -/
  | lineFault (expected observed : Bool)
  | safe
  | disabled
deriving DecidableEq, Repr

/-- The b field of an ENDED record: the outcome code, and for LINE_FAULT the levels (R174). -/
def JobOutcome.byte : JobOutcome → Byte
  | .completed => 0x01#8
  | .stopped => 0x02#8
  | .preempted => 0x03#8
  | .carrierTimeout => 0x04#8
  | .noCarrierClass => 0x05#8
  | .chainMissing => 0x06#8
  | .lineFault expected observed =>
    0x07#8 + (if expected then 0x20#8 else 0x00#8) + (if observed then 0x10#8 else 0x00#8)
  | .safe => 0x08#8
  | .disabled => 0x09#8

/-- The outcome that a fixed outcome gives the job at its end. -/
def FixedOutcome.outcome : FixedOutcome → JobOutcome
  | .stopped => .stopped
  | .preempted => .preempted

/-- The outcome code of a fixed outcome (R175). -/
def FixedOutcome.code : FixedOutcome → Nat
  | .stopped => 2
  | .preempted => 3

/-- The reasons for dropping a queued job (section 2.7). -/
inductive DropReason where
  | cancelled
  | flushed
  | triggerTimeout
  | lineFault
  | safe
  | disabled
deriving DecidableEq, Repr

/-- The code of a drop reason. -/
def DropReason.code : DropReason → Byte
  | .cancelled => 0x01#8
  | .flushed => 0x02#8
  | .triggerTimeout => 0x03#8
  | .lineFault => 0x04#8
  | .safe => 0x05#8
  | .disabled => 0x06#8

/-- The safe level of a code. -/
def safeLevel? (b : Byte) : Option SafeLevel :=
  match b.toNat with
  | 0 => some .released
  | 1 => some .inactive
  | 2 => some .active
  | _ => none

/-- The code of a safe level. -/
def SafeLevel.code : SafeLevel → Nat
  | .released => 0
  | .inactive => 1
  | .active => 2

/-- The report selection of a code. -/
def selection? (b : Byte) : Option Selection :=
  match b.toNat with
  | 0 => some .none
  | 1 => some .rise
  | 2 => some .fall
  | 3 => some .both
  | _ => none

/-- The code of a report selection. -/
def Selection.code : Selection → Byte
  | .none => 0x00#8
  | .rise => 0x01#8
  | .fall => 0x02#8
  | .both => 0x03#8

/-- The code of the lease state. -/
def LeaseState.code : LeaseState → Byte
  | .off => 0x00#8
  | .running _ => 0x01#8
  | .expired => 0x02#8

/-- The code of a generator state. -/
def Gen.code : Gen → Byte
  | .free => 0x00#8
  | .running _ _ _ => 0x01#8
  | .draining _ _ _ => 0x02#8

/-- The code of a driven state. -/
def Driven.code : Driven → Nat
  | .low => 0
  | .high => 1
  | .released => 2

/-- The code of a report kind (R174). -/
def ReportKind.code : ReportKind → Byte
  | .started => 0x01#8
  | .mark => 0x02#8
  | .ended => 0x03#8
  | .dropped => 0x04#8
  | .sense => 0x05#8
  | .leaseExpired => 0x06#8
  | .loadAbandoned => 0x07#8
  | .outputsReset => 0x08#8
  | .overflow => 0x09#8

/-- The RESET scope of a code. -/
def scope? (b : Byte) : Option Scope :=
  match b.toNat with
  | 1 => some .outputs
  | 2 => some .all
  | _ => none

/-! ### Step records and reports in frames -/

/-- The kind that the low seven bits of a kind byte and the class byte give, if both are in range (R172). -/
def stepKind? (kind : Nat) (cls : Byte) : Option StepKind :=
  match kind with
  | 0 => if cls = 0x00#8 then some .active else none
  | 1 => if cls = 0x00#8 then some .inactive else none
  | 2 => (index? 8 cls).map .carrier
  | 3 => if cls = 0x00#8 then some .rest else none
  | _ => none

/-- The step of a record, if the record is valid (R2, R172). -/
def decodeStep? (r : RawStep) : Option Step :=
  if r.duration = 0#16 then none
  else (stepKind? (r.kindMark.toNat % 128) r.cls).map fun k => ⟨k, r.duration, r.kindMark.getLsbD 7⟩

/-- The kind code of a step kind (R172). -/
def StepKind.code : StepKind → Nat
  | .active => 0
  | .inactive => 1
  | .carrier _ => 2
  | .rest => 3

/-- The class byte of a step kind, 0 for the kinds other than CARRIER (R172). -/
def StepKind.classByte : StepKind → Byte
  | .carrier k => byteOf k.val
  | _ => 0x00#8

/-- A step as a record (R172). -/
def Step.raw (s : Step) : RawStep where
  kindMark := byteOf (s.kind.code + if s.mark then 128 else 0)
  cls := s.kind.classByte
  duration := s.duration

/-- The four bytes of a step record (R172). -/
def rawStepBytes (r : RawStep) : List Byte :=
  r.kindMark :: r.cls :: halfBytes r.duration

/-- The records that stand in a list of bytes, if it holds whole records (R172). -/
def rawSteps? : List Byte → Option (List RawStep)
  | [] => some []
  | kind :: cls :: high :: low :: rest =>
    (rawSteps? rest).map (⟨kind, cls, joinHalf high low⟩ :: ·)
  | _ => none

/-- The eleven bytes of a report record (R174). -/
def Record.bytes (r : Record) : List Byte :=
  r.report.kind.code :: r.sequence :: (wordBytes r.report.time
    ++ [match r.report.source with | some n => byteOf n.val | none => noneByte]
    ++ halfBytes r.report.job ++ [r.report.a, r.report.b])

/-! ### Commands as frames carry them (section 10.4) -/

/-- The commands of the catalogue with their payload fields. -/
inductive Request where
  | ident
  | status (clear : Byte)
  | reset (scope : Byte)
  | lease (period : Half)
  | recover
  | time
  | attnConfig (enable threshold hold : Byte)
  | fetch (k : Byte)
  | ack (batchTag : Byte)
  | patOpen (p : OpenFields)
  | patSteps (id first : Byte) (records : List RawStep)
  | patSeal (id : Byte)
  | patDiscard (id : Byte)
  | patDelete (id : Byte)
  | patInfo (id : Byte)
  | patRead (id first count : Byte)
  | carSet (cls : Byte) (period high : Half)
  | carClear (cls : Byte)
  | carStatus (part : Byte)
  | chConfig (p : ConfigFields)
  | chEnable (mask : Byte)
  | chDisable (mask force : Byte)
  | play (p : PlayFields)
  | cancel (channel : Byte) (job : Half)
  | stop (mask boundary flush : Byte)
  | hold (mask : Byte)
  | resume (mask : Byte)
  | go (mask : Byte)
  | clearFault (mask : Byte)
  | chStatus (channel : Byte)
  | snConfig (line selection filter : Byte)
  | lines
deriving DecidableEq, Repr

/-- The code of a command (section 10.4). -/
def Request.code : Request → Byte
  | .ident => 0x01#8
  | .status _ => 0x02#8
  | .reset _ => 0x03#8
  | .lease _ => 0x08#8
  | .recover => 0x09#8
  | .time => 0x10#8
  | .attnConfig _ _ _ => 0x11#8
  | .fetch _ => 0x12#8
  | .ack _ => 0x13#8
  | .patOpen _ => 0x20#8
  | .patSteps _ _ _ => 0x21#8
  | .patSeal _ => 0x22#8
  | .patDiscard _ => 0x23#8
  | .patDelete _ => 0x24#8
  | .patInfo _ => 0x25#8
  | .patRead _ _ _ => 0x26#8
  | .carSet _ _ _ => 0x30#8
  | .carClear _ => 0x31#8
  | .carStatus _ => 0x32#8
  | .chConfig _ => 0x40#8
  | .chEnable _ => 0x41#8
  | .chDisable _ _ => 0x42#8
  | .play _ => 0x43#8
  | .cancel _ _ => 0x44#8
  | .stop _ _ _ => 0x45#8
  | .hold _ => 0x46#8
  | .resume _ => 0x47#8
  | .go _ => 0x48#8
  | .clearFault _ => 0x49#8
  | .chStatus _ => 0x4A#8
  | .snConfig _ _ _ => 0x50#8
  | .lines => 0x51#8

/-- The payload of a command, field by field (sections 10.4 and 10.5). -/
def Request.payload : Request → List Byte
  | .ident => []
  | .status clear => [clear]
  | .reset scope => [scope]
  | .lease period => halfBytes period
  | .recover => []
  | .time => []
  | .attnConfig enable threshold holdTime => [enable, threshold, holdTime]
  | .fetch k => [k]
  | .ack batchTag => [batchTag]
  | .patOpen p => [p.id, p.steps, p.timeUnit, p.loopStart, p.repeats, p.finalAction, p.target]
  | .patSteps id first records => id :: first :: records.flatMap rawStepBytes
  | .patSeal id => [id]
  | .patDiscard id => [id]
  | .patDelete id => [id]
  | .patInfo id => [id]
  | .patRead id first count => [id, first, count]
  | .carSet cls period high => cls :: (halfBytes period ++ halfBytes high)
  | .carClear cls => [cls]
  | .carStatus part => [part]
  | .chConfig p =>
    [p.channel, p.polarity, p.drive, p.rest, p.safe, p.readback, p.safeOnLease] ++ halfBytes p.waitLimit
  | .chEnable mask => [mask]
  | .chDisable mask force => [mask, force]
  | .play p =>
    [p.channel, p.pattern, p.priority, p.start, p.line, p.edge] ++ halfBytes p.window
      ++ [p.overrideFlag, p.override, p.flags]
  | .cancel channel job => channel :: halfBytes job
  | .stop mask boundary flush => [mask, boundary, flush]
  | .hold mask => [mask]
  | .resume mask => [mask]
  | .go mask => [mask]
  | .clearFault mask => [mask]
  | .chStatus channel => [channel]
  | .snConfig line selection filter => [line, selection, filter]
  | .lines => []

/-- The records of a PAT_STEPS payload, which holds 1 to 8 of them (R12). -/
def stepsRequest (id first : Byte) (rest : List Byte) : Except Status Request :=
  match rawSteps? rest with
  | some records =>
    if 1 ≤ records.length ∧ records.length ≤ 8 then .ok (.patSteps id first records) else .error .badLength
  | none => .error .badLength

/-- A command without a payload (R169). -/
def exactly0 (r : Request) : List Byte → Except Status Request
  | [] => .ok r
  | _ => .error .badLength

/-- A command with a payload of one byte (R169). -/
def exactly1 (f : Byte → Request) : List Byte → Except Status Request
  | [a] => .ok (f a)
  | _ => .error .badLength

/-- A command with a payload of two bytes (R169). -/
def exactly2 (f : Byte → Byte → Request) : List Byte → Except Status Request
  | [a, b] => .ok (f a b)
  | _ => .error .badLength

/-- A command with a payload of three bytes (R169). -/
def exactly3 (f : Byte → Byte → Byte → Request) : List Byte → Except Status Request
  | [a, b, c] => .ok (f a b c)
  | _ => .error .badLength

/-- The payload of PAT_OPEN (R10). -/
def parseOpen : List Byte → Except Status Request
  | [a, b, c, d, e, f, g] => .ok (.patOpen ⟨a, b, c, d, e, f, g⟩)
  | _ => .error .badLength

/-- The payload of PAT_STEPS (R12). -/
def parseSteps : List Byte → Except Status Request
  | id :: first :: rest => stepsRequest id first rest
  | _ => .error .badLength

/-- The payload of CAR_SET (R77). -/
def parseCarSet : List Byte → Except Status Request
  | [a, b, c, d, e] => .ok (.carSet a (joinHalf b c) (joinHalf d e))
  | _ => .error .badLength

/-- The payload of CH_CONFIG (R99). -/
def parseConfig : List Byte → Except Status Request
  | [a, b, c, d, e, f, g, h, i] => .ok (.chConfig ⟨a, b, c, d, e, f, g, joinHalf h i⟩)
  | _ => .error .badLength

/-- The payload of PLAY (R173). -/
def parsePlay : List Byte → Except Status Request
  | [a, b, c, d, e, f, g, h, i, j, k] => .ok (.play ⟨a, b, c, d, e, f, joinHalf g h, i, j, k⟩)
  | _ => .error .badLength

/-- The first two classes of checks (R169): the command that a code and a payload spell, or BAD_CODE for a code outside the
catalogue, or BAD_LENGTH for a payload whose length is not the command's. -/
def parseRequest (code : Byte) (payload : List Byte) : Except Status Request :=
  match code.toNat with
  | 0x01 => exactly0 .ident payload
  | 0x02 => exactly1 .status payload
  | 0x03 => exactly1 .reset payload
  | 0x08 => exactly2 (fun a b => .lease (joinHalf a b)) payload
  | 0x09 => exactly0 .recover payload
  | 0x10 => exactly0 .time payload
  | 0x11 => exactly3 .attnConfig payload
  | 0x12 => exactly1 .fetch payload
  | 0x13 => exactly1 .ack payload
  | 0x20 => parseOpen payload
  | 0x21 => parseSteps payload
  | 0x22 => exactly1 .patSeal payload
  | 0x23 => exactly1 .patDiscard payload
  | 0x24 => exactly1 .patDelete payload
  | 0x25 => exactly1 .patInfo payload
  | 0x26 => exactly3 .patRead payload
  | 0x30 => parseCarSet payload
  | 0x31 => exactly1 .carClear payload
  | 0x32 => exactly1 .carStatus payload
  | 0x40 => parseConfig payload
  | 0x41 => exactly1 .chEnable payload
  | 0x42 => exactly2 .chDisable payload
  | 0x43 => parsePlay payload
  | 0x44 => exactly3 (fun a b c => .cancel a (joinHalf b c)) payload
  | 0x45 => exactly3 .stop payload
  | 0x46 => exactly1 .hold payload
  | 0x47 => exactly1 .resume payload
  | 0x48 => exactly1 .go payload
  | 0x49 => exactly1 .clearFault payload
  | 0x4A => exactly1 .chStatus payload
  | 0x50 => exactly3 .snConfig payload
  | 0x51 => exactly0 .lines payload
  | _ => .error .badCode

/-! ### Frames (sections 9.2 and 10.1) -/

/-- The start byte of every frame. -/
def startByte : Byte := 0xC3#8

/-- One bit of the CRC computation: polynomial 1021H, most significant bit first (R150). -/
def crcShift (crc : Half) : Half :=
  if crc.getLsbD 15 then (crc <<< 1) ^^^ 0x1021#16 else crc <<< 1

/-- Several bits of the CRC computation. -/
def crcShifts : Nat → Half → Half
  | 0, crc => crc
  | n + 1, crc => crcShifts n (crcShift crc)

/-- The CRC after one more byte. -/
def crcByte (crc : Half) (b : Byte) : Half :=
  crcShifts 8 (crc ^^^ (b ++ 0x00#8 : Half))

/-- The CRC of a run of bytes, from FFFFH and without a final inversion (R150). -/
def crc16 (bytes : List Byte) : Half :=
  bytes.foldl crcByte 0xFFFF#16

/-- The bytes from the unit byte to the last payload byte, which the CRC covers (R150). -/
def framedBytes (unitByte tag code : Byte) (payload : List Byte) : List Byte :=
  unitByte :: tag :: code :: byteOf payload.length :: payload

/-- Whether a received frame passes its CRC check (R150). -/
def crcPasses (f : Frame) : Bool :=
  crc16 (framedBytes f.unitByte f.tag f.code f.payload) == f.crc

/-- All the bytes of a frame as they stand on the line (section 10.1). -/
def wireBytes (unitByte tag code : Byte) (payload : List Byte) : List Byte :=
  startByte :: (framedBytes unitByte tag code payload
    ++ halfBytes (crc16 (framedBytes unitByte tag code payload)))

/-- The frame that carries a command, with its CRC as the host computes it. -/
def commandFrame (v : Via) (r : Request) : Frame where
  unitByte := v.unitByte
  tag := v.tag
  code := r.code
  payload := r.payload
  crc := crc16 (framedBytes v.unitByte v.tag r.code r.payload)

/-- The unit value of a unit byte (R150). -/
def unitValue (unitByte : Byte) : Nat :=
  unitByte.toNat / 16

/-- The reply flag of a unit byte (R150). -/
def replyFlag (unitByte : Byte) : Bool :=
  unitByte.getLsbD 3

end Sys2Proof.Machine
end

