-- ==== Sys2Proof/Machine/Ops.lean ====
section
/-! DEFINITION. The named operations that every block uses: reading and writing a channel, an entry and a generator, taking
what the manual leaves unordered in a free order, and handing reports to RPT. -/

namespace Sys2Proof.Machine

/-! ### Reading and writing the blocks' records -/

/-- The record of a channel. -/
def State.chan (s : State) (c : Chan) : Channel :=
  s.chans[c]

/-- The state with a channel's record replaced. -/
def State.setChan (s : State) (c : Chan) (ch : Channel) : State :=
  { s with chans := s.chans.set c ch }

/-- The state with a channel's record changed by a function. -/
def State.modChan (s : State) (c : Chan) (f : Channel → Channel) : State :=
  s.setChan c (f (s.chan c))

/-- The state with a channel's active job changed by a function; nothing changes without one. -/
def State.modActive (s : State) (c : Chan) (f : Active → Active) : State :=
  s.modChan c fun ch => { ch with active := ch.active.map f }

/-- A pattern entry. -/
def State.entry (s : State) (p : PatId) : Entry :=
  s.ptab.entries[p]

/-- The state with a pattern entry replaced. -/
def State.setEntry (s : State) (p : PatId) (e : Entry) : State :=
  { s with ptab := { s.ptab with entries := s.ptab.entries.set p e } }

/-- A generator's record. -/
def State.gen (s : State) (g : GenId) : Gen :=
  s.carb.gens[g]

/-- The state with a generator's record replaced. -/
def State.setGen (s : State) (g : GenId) (x : Gen) : State :=
  { s with carb := { s.carb with gens := s.carb.gens.set g x } }

/-- The state with the carrier wait list replaced. -/
def State.setWaitList (s : State) (ws : List Waiter) : State :=
  { s with carb := { s.carb with waitList := ws } }

/-- The class table's entry of a class. -/
def State.carrierClass (s : State) (k : Cls) : Option CarrierClass :=
  s.carb.classes[k]

/-- A sense line's record. -/
def State.senseLine (s : State) (l : Line) : SenseLine :=
  s.sense.lines[l]

/-- The channels with a property, in number order. -/
def chansWith (p : Chan → Bool) : List Chan :=
  (List.finRange 8).filter p

/-! ### What the manual leaves unordered (log 1) -/

/-- A permutation of a list, drawn by a number: every permutation is drawn by some number. The first argument bounds the
length. -/
def shuffle {α : Type} : Nat → Nat → List α → List α
  | 0, _, _ => []
  | n + 1, seed, xs =>
    match xs[seed % xs.length]? with
    | none => []
    | some x => x :: shuffle n (seed / xs.length) (xs.eraseIdx (seed % xs.length))

/-- A list taken in a free order, and the state that has drawn it; a list of at most one element has one order only. -/
def State.ordered {α : Type} (s : State) (xs : List α) : List α × State :=
  if xs.length ≤ 1 then (xs, s)
  else (shuffle xs.length (Config.freeOrder s.choices) xs, { s with choices := s.choices + 1 })

/-- An operation done for each channel or generator of a list, one after the other, in a free order (R91, R94, R104, R128). -/
def State.forEach {α : Type} (s : State) (xs : List α) (f : α → State → State) : State :=
  (s.ordered xs).1.foldl (fun s x => f x s) (s.ordered xs).2

/-- A merge of reports that keeps the order of each producer, drawn by a number (R128): every such merge is drawn by some
number. The first argument bounds the length. -/
def mergeReports : Nat → Nat → List (Producer × Report) → List Report
  | 0, _, _ => []
  | n + 1, seed, xs =>
    match xs[seed % xs.length]? with
    | none => []
    | some (p, _) =>
      match xs[xs.findIdx fun x => x.1 == p]? with
      | none => []
      | some (_, r) => r :: mergeReports n (seed / xs.length) (xs.eraseIdx (xs.findIdx fun x => x.1 == p))

/-- Whether all the reports of a list come from one producer. -/
def oneProducer : List (Producer × Report) → Bool
  | [] => true
  | x :: xs => xs.all fun y => y.1 == x.1

/-! ### Reports (R121 to R128) -/

/-- A report handed to RPT within the event in progress, stamped with the part time (R123). -/
def State.report (s : State) (p : Producer) (kind : ReportKind) (source : Option (Fin 8)) (job : Half) (a b : Byte) :
    State :=
  { s with outbox := s.outbox ++ [(p, ⟨kind, s.rpt.partTime, source, job, a, b⟩)] }

/-- A report of a channel about one of its jobs (R122). -/
def State.jobReport (s : State) (c : Chan) (kind : ReportKind) (job : Half) (a b : Byte) : State :=
  s.report (.channel c) kind (some c) job a b

/-- The number of records of the outstanding batch (R129). -/
def ReportUnit.batchSize (u : ReportUnit) : Nat :=
  match u.batch with
  | some b => b.size
  | none => 0

/-- The undelivered count (R129). -/
def ReportUnit.undelivered (u : ReportUnit) : Nat :=
  u.queue.length - u.batchSize

/-- The oldest undelivered record. -/
def ReportUnit.oldest (u : ReportUnit) : Option Record :=
  u.queue[u.batchSize]?

/-- Whether the oldest undelivered record, its age reckoned from its stamp, has reached the hold age (R135). -/
def ReportUnit.reckonAge (u : ReportUnit) : Bool :=
  match u.oldest with
  | none => false
  | some r =>
    decide (u.holdTime ≠ 0x00#8) && decide (u.holdTime.toNat * 1000 ≤ (u.partTime - r.report.time).toNat)

/-- A marker that stands for one more lost report; the count stays at 255 (R127). -/
def Record.countLoss (r : Record) : Record :=
  { r with report := { r.report with a := if r.report.a = 0xFF#8 then 0xFF#8 else r.report.a + 1#8 } }

/-- A new OVERFLOW marker for a lost report, with the report's sequence number and time (R127). -/
def newMarker (r : Report) (sequence : Byte) : Record where
  report := ⟨.overflow, r.time, none, 0#16, 0x01#8, 0x00#8⟩
  sequence := sequence

/-- Whether a record is an OVERFLOW marker. -/
def Record.isMarker (r : Record) : Bool :=
  r.report.kind == .overflow

/-- The queue after RPT has taken a report that bears the given sequence number (R126). -/
def queueReport (queue : List Record) (r : Report) (sequence : Byte) : List Record :=
  if queue.length ≤ 30 then queue ++ [⟨r, sequence⟩]
  else
    match queue.getLast? with
    | some last =>
      if last.isMarker then queue.dropLast ++ [last.countLoss] else queue ++ [newMarker r sequence]
    | none => queue

/-- RPT takes one report: it consumes a sequence number and is appended, or is lost into a marker (R125, R126). A record that
becomes the oldest undelivered begins its age (R135). -/
def ReportUnit.take (u : ReportUnit) (r : Report) : ReportUnit :=
  let v := { u with queue := queueReport u.queue r u.nextSequence, nextSequence := u.nextSequence + 1#8 }
  if u.oldest.isSome then v else { v with ageReached := v.reckonAge }

/-- The reports of the event in progress in the order in which RPT takes them (R128), and the state that has drawn it. -/
def State.takenReports (s : State) : List Report × State :=
  if oneProducer s.outbox then (s.outbox.map (·.2), s)
  else (mergeReports s.outbox.length (Config.freeOrder s.choices) s.outbox, { s with choices := s.choices + 1 })

/-- RPT takes the reports made in the event in progress. -/
def State.flushReports (s : State) : State :=
  { s.takenReports.2 with
    outbox := []
    rpt := s.takenReports.1.foldl ReportUnit.take s.rpt }

/-! ### Remaining times in replies -/

/-- A time in reference clocks as milliseconds rounded up (R175, R176). -/
def millisUp (clocks : Nat) : Nat :=
  (clocks + (Config.clocksPerMilli - 1)) / Config.clocksPerMilli

/-- A time in reference clocks as microseconds. A time that is no whole number of microseconds is rounded either way: the
manual does not say which (log 4). -/
def micros (clocks : Nat) : Nat :=
  if clocks % Config.clocksPerMicro = 0 then clocks / Config.clocksPerMicro
  else clocks / Config.clocksPerMicro + if Config.roundMicrosUp clocks then 1 else 0

/-! ### Answers of the owning blocks -/

/-- What the owning block's execution of a command gives: the state, the reply's payload, and the reset that the reply's end
brings (R159, R167, R179). -/
structure Answer where
  state : State
  payload : List Byte
  reset : Option Scope

/-- A command answered OK with its result fields (R168). -/
def answerOk (s : State) (fields : List Byte) : Answer where
  state := s
  payload := statusOk :: fields
  reset := none

/-- A refused command: nothing changes and the reply carries the status alone (R168, R170). -/
def refuse (s : State) (status : Status) : Answer where
  state := s
  payload := [status.code]
  reset := none

/-- A command refused SEQUENCE: the reply also carries the loaded count (R168). -/
def refuseSequence (s : State) (loaded : Nat) : Answer where
  state := s
  payload := [Status.sequence.code, byteOf loaded]
  reset := none

end Sys2Proof.Machine
end

