-- ==== Sys2Proof/Machine/Flags.lean ====
section
/-! DEFINITION. The signals that follow the state in the same event: the driven state of every output line (section 5.2) and
ATTN_N (section 7.5). Every command and event ends in `settle`, which hands the event's reports to RPT and sets both. -/

namespace Sys2Proof.Machine

/-- The step that an active job stands at, looked up in its READY pattern (R50). -/
def State.currentStep (s : State) (a : Active) : Option Step :=
  match s.entry a.job.pattern with
  | .ready _ steps _ => steps[a.stepIndex]?
  | _ => none

/-- The logical levels of a line (R100). -/
inductive Level where
  | active
  | inactive
  | released
deriving DecidableEq, Repr

/-- The rest level of a line configuration. -/
def LineConfig.restLevel (cfg : LineConfig) : Level :=
  if cfg.restActive then .active else .inactive

/-- The safe level of a line configuration. -/
def SafeLevel.level : SafeLevel → Level
  | .released => .released
  | .inactive => .inactive
  | .active => .active

/-- Whether a generator is in the high portion of a cycle (R76). -/
def Gen.inHigh : Gen → Bool
  | .free => false
  | .running _ _ high => high
  | .draining _ _ high => high

/-- The logical level of a PLAYING channel (R100). -/
def State.playingLevel (s : State) (cfg : LineConfig) (a : Active) : Level :=
  match a.attach with
  | some ⟨_, .opening⟩ => .inactive
  | some ⟨g, .opened⟩ => if (s.gen g).inHigh then .active else .inactive
  | none =>
    match (s.currentStep a).map Step.kind with
    | some .active => .active
    | some .inactive => .inactive
    | _ => cfg.restLevel

/-- The logical level of a channel (R100). -/
def State.level (s : State) (c : Chan) : Level :=
  match (s.chan c).state with
  | .off => .released
  | .idle | .armed | .carrierWait | .held => (s.chan c).config.restLevel
  | .playing =>
    match (s.chan c).active with
    | some a => s.playingLevel (s.chan c).config a
    | none => (s.chan c).config.restLevel
  | .safe | .fault => (s.chan c).config.safeLevel.level

/-- The driven state that a logical level gives through polarity and drive (R101). -/
def LineConfig.drive (cfg : LineConfig) : Level → Driven
  | .active => if cfg.activeLow then .low else if cfg.openDrain then .released else .high
  | .inactive => if cfg.activeLow then (if cfg.openDrain then .released else .high) else .low
  | .released => .released

/-- The driven state of a channel's pin as R100 and R101 give it. -/
def State.drivenLevel (s : State) (c : Chan) : Driven :=
  (s.chan c).config.drive (s.level c)

/-- The state with every output line at its driven state. -/
def State.driveLines (s : State) : State :=
  { s with outs := Vector.ofFn fun c => s.drivenLevel c }

/-- The age condition of ATTN_N (R134, R135). -/
def ReportUnit.ageCondition (u : ReportUnit) : Bool :=
  decide (u.holdTime ≠ 0x00#8) && u.oldest.isSome && u.ageReached

/-- Whether RPT pulls ATTN_N low (R134). -/
def ReportUnit.pulls (u : ReportUnit) : Bool :=
  u.enable && (decide (u.threshold ≤ u.undelivered) || u.ageCondition)

/-- The state with ATTN_N decided (R134). -/
def State.decideAttention (s : State) : State :=
  { s with rpt := { s.rpt with attention := s.rpt.pulls } }

/-- The end of an event: RPT has taken its reports, ATTN_N is decided and the output lines follow. -/
def State.settle (s : State) : State :=
  s.flushReports.decideAttention.driveLines

end Sys2Proof.Machine
end

