-- ==== Sys2Proof/Machine/Patterns.lean ====
section
/-! DEFINITION. PTAB, the pattern table: the step pool, the load slot, the reference counts and what PTAB does for its seven
commands (chapter 1). -/

namespace Sys2Proof.Machine

/-! ### The step pool and the reference counts -/

/-- The pool positions an entry has reserved (R3). -/
def Entry.reserved : Entry → Nat
  | .free => 0
  | .loading h _ => h.count
  | .ready h _ _ => h.count

/-- The pool positions that all entries have reserved (R3). -/
def PatternTable.reservedSteps (t : PatternTable) : Nat :=
  (t.entries.toList.map Entry.reserved).sum

/-- The free pool steps (R3). -/
def PatternTable.freeSteps (t : PatternTable) : Nat :=
  Config.poolSteps - t.reservedSteps

/-- The free pool steps as the two bytes of a reply. -/
def State.freeStepsBytes (s : State) : List Byte :=
  natBytes2 s.ptab.freeSteps

/-- Whether an entry is READY. -/
def Entry.isReady : Entry → Bool
  | .ready _ _ _ => true
  | _ => false

/-- An entry with one job more that names it (R8). -/
def Entry.addRef : Entry → Entry
  | .ready h steps refs => .ready h steps (refs + 1)
  | e => e

/-- An entry with one job fewer that names it (R8). -/
def Entry.dropRef : Entry → Entry
  | .ready h steps refs => .ready h steps (refs - 1)
  | e => e

/-- An entry that no job names any more (R8, R21). -/
def Entry.clearRefs : Entry → Entry
  | .ready h steps _ => .ready h steps 0
  | e => e

/-- A job comes to name a pattern (R8). -/
def State.addRef (s : State) (p : PatId) : State :=
  s.setEntry p (s.entry p).addRef

/-- A job ceases to name a pattern (R8). -/
def State.dropRef (s : State) (p : PatId) : State :=
  s.setEntry p (s.entry p).dropRef

/-- A job passes from one pattern to another by a chain; to the same pattern nothing changes (R8, R54). -/
def State.moveRef (s : State) (p q : PatId) : State :=
  if p = q then s else (s.dropRef p).addRef q

/-- The load slot made empty, its timer stopped (R4). -/
def State.emptySlot (s : State) : State :=
  { s with ptab := { s.ptab with load := none } }

/-- The load slot holding an id, its timer started afresh at 500 ms (R4). -/
def State.startLoad (s : State) (p : PatId) : State :=
  { s with ptab := { s.ptab with load := some ⟨p, 500 * Config.clocksPerMilli⟩ } }

/-- The header and the loaded steps of the entry in the load slot, if the slot holds this id (R4). -/
def State.openLoad (s : State) (p : PatId) : Option (Header × List Step) :=
  match s.ptab.load with
  | some l =>
    if l.id = p then
      match s.entry p with
      | .loading h steps => some (h, steps)
      | _ => none
    else none
  | none => none

/-! ### PAT_OPEN, PAT_STEPS, PAT_SEAL, PAT_DISCARD, PAT_DELETE -/

/-- The id and the header that a PAT_OPEN gives, if its fields are valid (R10). -/
def openHeader? (p : OpenFields) : Option (PatId × Header) :=
  match index? 32 p.id, timeUnit? p.timeUnit, finalAction? p.finalAction p.target with
  | some id, some u, some final =>
    if 1 ≤ p.steps.toNat ∧ p.steps.toNat ≤ 64 ∧ p.loopStart.toNat < p.steps.toNat then
      some (id, ⟨p.steps.toNat, u, p.loopStart.toNat, p.repeats, final⟩)
    else none
  | _, _, _ => none

/-- Whether the load slot holds an id other than the given one. -/
def State.otherLoad (s : State) (p : PatId) : Bool :=
  match s.ptab.load with
  | some l => decide (l.id ≠ p)
  | none => false

/-- Whether some job names a pattern entry (R8). -/
def Entry.inUse : Entry → Bool
  | .ready _ _ refs => decide (0 < refs)
  | _ => false

/-- PAT_OPEN in PTAB (R10, R11). -/
def ownerPatOpen (p : OpenFields) (s : State) : Answer :=
  match openHeader? p with
  | none => refuse s .badField
  | some (id, h) =>
    if s.otherLoad id then refuse s .loadPending
    else if (s.entry id).inUse then refuse s .inUse
    else if s.ptab.freeSteps + (s.entry id).reserved < h.count then refuse s .noRoom
    else
      let t := (s.setEntry id (.loading h [])).startLoad id
      answerOk t t.freeStepsBytes

/-- The steps of a PAT_STEPS, if every record is valid (R2, R12). -/
def validSteps? (records : List RawStep) : Option (List Step) :=
  records.mapM decodeStep?

/-- PAT_STEPS in PTAB against the open load (R12, R13). -/
def appendSteps (id : PatId) (first : Nat) (new : List Step) (h : Header) (steps : List Step) (s : State) : Answer :=
  if first = steps.length then
    answerOk ((s.setEntry id (.loading h (steps ++ new))).startLoad id) [byteOf (steps ++ new).length]
  else if first + new.length ≤ steps.length ∧ (steps.drop first).take new.length = new then
    answerOk (s.startLoad id) [byteOf steps.length]
  else refuseSequence s steps.length

/-- PAT_STEPS in PTAB (R12, R13). -/
def ownerPatSteps (id first : Byte) (records : List RawStep) (s : State) : Answer :=
  match index? 32 id, validSteps? records with
  | some p, some new =>
    if 64 < first.toNat + new.length then refuse s .badField
    else
      match s.openLoad p with
      | none => refuse s .notFound
      | some (h, steps) =>
        if h.count < first.toNat + new.length then refuse s .badField
        else appendSteps p first.toNat new h steps s
  | _, _ => refuse s .badField

/-- PAT_SEAL in PTAB (R14). -/
def ownerPatSeal (id : Byte) (s : State) : Answer :=
  match index? 32 id with
  | none => refuse s .badField
  | some p =>
    match s.openLoad p with
    | none => refuse s .notFound
    | some (h, steps) =>
      if steps.length < h.count then refuseSequence s steps.length
      else answerOk (s.setEntry p (.ready h steps 0)).emptySlot [byteOf h.count]

/-- PAT_DISCARD in PTAB (R15). -/
def ownerPatDiscard (id : Byte) (s : State) : Answer :=
  match index? 32 id with
  | none => refuse s .badField
  | some p =>
    match s.openLoad p with
    | none => refuse s .notFound
    | some _ => answerOk (s.setEntry p .free).emptySlot []

/-- PAT_DELETE in PTAB (R18). -/
def ownerPatDelete (id : Byte) (s : State) : Answer :=
  match index? 32 id with
  | none => refuse s .badField
  | some p =>
    match s.entry p with
    | .ready _ _ refs =>
      if 0 < refs then refuse s .inUse
      else answerOk (s.setEntry p .free) (s.setEntry p .free).freeStepsBytes
    | _ => refuse s .notFound

/-! ### PAT_INFO and PAT_READ -/

/-- The header fields of a PAT_INFO reply with the count that follows them (section 10.4). -/
def Header.infoBytes (h : Header) (count : Nat) : List Byte :=
  [byteOf h.count, h.timeUnit.code, byteOf h.loopStart, h.repeats, h.final.code, h.final.targetByte, byteOf count]

/-- PAT_INFO in PTAB (R19). -/
def ownerPatInfo (id : Byte) (s : State) : Answer :=
  match index? 32 id with
  | none => refuse s .badField
  | some p =>
    match s.entry p with
    | .free => answerOk s (0x00#8 :: s.freeStepsBytes)
    | .loading h steps => answerOk s (0x01#8 :: (s.freeStepsBytes ++ h.infoBytes steps.length))
    | .ready h _ refs => answerOk s (0x02#8 :: (s.freeStepsBytes ++ h.infoBytes refs))

/-- The steps of an entry that PAT_READ may read; none for a FREE entry (R20). -/
def Entry.readable : Entry → Option (List Step)
  | .free => none
  | .loading _ steps => some steps
  | .ready _ steps _ => some steps

/-- PAT_READ in PTAB (R20). -/
def ownerPatRead (id first count : Byte) (s : State) : Answer :=
  match index? 32 id with
  | none => refuse s .badField
  | some p =>
    if count = 0x00#8 ∨ 8 < count.toNat ∨ 64 < first.toNat + count.toNat then refuse s .badField
    else
      match (s.entry p).readable with
      | none => refuse s .notFound
      | some steps =>
        if steps.length < first.toNat + count.toNat then refuse s .badField
        else
          answerOk s ([id, first, count]
            ++ ((steps.drop first.toNat).take count.toNat).flatMap fun x => rawStepBytes x.raw)

/-! ### Expiry of the load timer -/

/-- Whether the load timer has reached 0 (R4). -/
def State.loadExpired (s : State) : Bool :=
  match s.ptab.load with
  | some l => decide (l.remaining = 0)
  | none => false

/-- PTAB abandons the open load and reports it (R16). -/
def State.abandonLoad (s : State) : State :=
  match s.ptab.load with
  | none => s
  | some l =>
    match s.entry l.id with
    | .loading _ steps =>
      ((s.setEntry l.id .free).emptySlot).report .table .loadAbandoned none 0#16 (byteOf l.id.val) (byteOf steps.length)
    | _ => s.emptySlot

end Sys2Proof.Machine
end

