-- ==== Sys2Proof/Machine/Carriers.lean ====
section
/-! DEFINITION. CARB, the carrier arbiter: generators and their users, requests, gates, grants and the wait list (chapter 4). -/

namespace Sys2Proof.Machine

/-! ### Generators and their users -/

/-- The class a generator holds; none when FREE (R79). -/
def Gen.cls : Gen → Option Cls
  | .free => none
  | .running k _ _ => some k
  | .draining k _ _ => some k

/-- A generator's cycle phase in reference clocks, 0 when FREE. -/
def Gen.phase : Gen → Nat
  | .free => 0
  | .running _ phase _ => phase
  | .draining _ phase _ => phase

/-- The period of a class in reference clocks; 0 when it is undefined. -/
def State.periodOf (s : State) (k : Cls) : Nat :=
  match s.carrierClass k with
  | some x => x.period
  | none => 0

/-- The high time of a class in reference clocks; 0 when it is undefined. -/
def State.highOf (s : State) (k : Cls) : Nat :=
  match s.carrierClass k with
  | some x => x.high
  | none => 0

/-- A channel's carrier attachment. -/
def Channel.attachment (ch : Channel) : Option Attachment :=
  ch.active.bind Active.attach

/-- Whether a channel is attached to a generator. -/
def State.uses (s : State) (c : Chan) (g : GenId) : Bool :=
  match (s.chan c).attachment with
  | some t => decide (t.gen = g)
  | none => false

/-- The users of a generator, in channel order; the user count is their number (R79). -/
def State.users (s : State) (g : GenId) : List Chan :=
  chansWith fun c => s.uses c g

/-- Whether a channel's gate on a generator is in the given position. -/
def State.gateIs (s : State) (c : Chan) (g : GenId) (gate : Gate) : Bool :=
  decide ((s.chan c).attachment = some ⟨g, gate⟩)

/-- The non-FREE generator that holds a class (R79, R81). -/
def State.holder (s : State) (k : Cls) : Option GenId :=
  (List.finRange 3).find? fun g => decide ((s.gen g).cls = some k)

/-- The lowest-numbered FREE generator (R81). -/
def State.freeGen (s : State) : Option GenId :=
  (List.finRange 3).find? fun g => decide (s.gen g = .free)

/-- Whether the present moment is a cycle boundary of a generator: the end of a cycle, which is the start of the next (R80).
DEDUCED (log 8): the start of a generator's first cycle counts as one, since no cycle is in progress there. -/
def State.atBoundary (s : State) (g : GenId) : Bool :=
  match (s.gen g).cls with
  | none => true
  | some k => decide ((s.gen g).phase = 0 ∨ s.periodOf k ≤ (s.gen g).phase)

/-- Whether a generator's cycle in progress has come to its end, the event of which is still to be taken (R80). -/
def State.cycleDue (s : State) (g : GenId) : Bool :=
  match (s.gen g).cls with
  | none => false
  | some k => decide (s.periodOf k ≤ (s.gen g).phase)

/-- Whether the high portion of a generator's cycle has come to its end, the event of which is still to be taken (R100). -/
def State.highDue (s : State) (g : GenId) : Bool :=
  match (s.gen g).cls with
  | none => false
  | some k => (s.gen g).inHigh && decide (s.highOf k ≤ (s.gen g).phase)

/-! ### Grants -/

/-- A waiting channel is granted a generator: its gate opens at once, its wait timer stops and its step clock starts (R90). -/
def Channel.granted (g : GenId) (ch : Channel) : Channel :=
  if ch.state = .carrierWait then
    { ch with
      state := .playing
      waitTimer := none
      active := ch.active.map fun a => { a with attach := some ⟨g, .opened⟩, clock := .running } }
  else ch

/-- A FREE generator is granted to the oldest waiter and to every other waiter of its class (R90). -/
def State.grant (s : State) (g : GenId) : State :=
  match s.carb.waitList with
  | [] => s
  | w :: _ =>
    ((s.carb.waitList.filter fun x => x.cls = w.cls).map Waiter.chan).foldl
      (fun s c => s.modChan c (Channel.granted g))
      ((s.setGen g (.running w.cls 0 true)).setWaitList (s.carb.waitList.filter fun x => x.cls ≠ w.cls))

/-- A generator becomes FREE and is granted in the same event if a channel waits (R87, R88, R90). -/
def State.releaseGen (s : State) (g : GenId) : State :=
  (s.setGen g .free).grant g

/-- The last user of a generator has left: it becomes FREE at a cycle boundary and DRAINING between two (R87, R88). -/
def State.lastUserLeft (s : State) (g : GenId) : State :=
  match s.gen g with
  | .running k phase high =>
    if s.atBoundary g then s.releaseGen g else s.setGen g (.draining k phase high)
  | _ => s

/-- The channel's gate closes and it leaves its generator (R87, R88). -/
def State.detach (s : State) (c : Chan) : State :=
  match (s.chan c).attachment with
  | none => s
  | some t =>
    let s' := s.modActive c fun a => { a with attach := none }
    if s'.users t.gen = [] then s'.lastUserLeft t.gen else s'

/-! ### Requests and the wait list -/

/-- A channel becomes PLAYING and attached to a generator, its step clock running once its gate is open (R82, R83). -/
def Channel.attached (g : GenId) (gate : Gate) (ch : Channel) : Channel :=
  { ch with
    state := .playing
    waitTimer := none
    active := ch.active.map fun a =>
      { a with
        attach := some ⟨g, gate⟩
        clock := match gate with | .opened => .running | .opening => .notStarted } }

/-- A generator that a channel joins: a drain is withdrawn (R82). -/
def Gen.joined : Gen → Gen
  | .draining k phase high => .running k phase high
  | x => x

/-- A channel joins a generator of its class: its gate opens at once at a cycle start, otherwise it is opening (R82). -/
def State.join (s : State) (c : Chan) (g : GenId) : State :=
  (s.setGen g (s.gen g).joined).modChan c
    (Channel.attached g (if (s.gen g).phase = 0 then .opened else .opening))

/-- A FREE generator takes the class and the channel, and its first cycle starts at once (R83). -/
def State.allocate (s : State) (c : Chan) (k : Cls) (g : GenId) : State :=
  (s.setGen g (.running k 0 true)).modChan c (Channel.attached g .opened)

/-- A channel that must wait: CARRIER_WAIT, with a wait timer at the full limit unless the limit is 0 (R84, R85). -/
def Channel.waiting (ch : Channel) : Channel :=
  { ch with
    state := .carrierWait
    waitTimer :=
      if ch.config.waitLimit = 0x00#8 then none else some (ch.config.waitLimit.toNat * Config.clocksPerMilli)
    active := ch.active.map fun a => { a with attach := none, clock := .notStarted } }

/-- A channel is appended to the wait list (R84). -/
def State.wait (s : State) (c : Chan) (k : Cls) : State :=
  (s.setWaitList (s.carb.waitList ++ [⟨c, k⟩])).modChan c Channel.waiting

/-- CARB decides a request: join, allocate or wait (R81). -/
def State.request (s : State) (c : Chan) (k : Cls) : State :=
  match s.holder k with
  | some g => s.join c g
  | none =>
    match s.freeGen with
    | some g => s.allocate c k g
    | none => s.wait c k

/-- A channel gives up its place on the wait list, and its wait timer stops (R84, R85). -/
def State.leaveWaitList (s : State) (c : Chan) : State :=
  (s.setWaitList (s.carb.waitList.filter fun x => x.chan ≠ c)).modChan c fun ch => { ch with waitTimer := none }

/-- A channel gives up every place it holds at CARB (R92). -/
def State.giveUpCarrier (s : State) (c : Chan) : State :=
  (s.leaveWaitList c).detach c

/-! ### Forced closes (R93) -/

/-- A channel gives up its place on the wait list and its gate closes at once, what becomes of the generator left open. -/
def State.shutGate (s : State) (c : Chan) : State :=
  (s.leaveWaitList c).modActive c fun a => { a with attach := none }

/-- The generators that lose their last user when the gates of the given channels close. -/
def State.deserted (s : State) (cs : List Chan) : List GenId :=
  (List.finRange 3).filter fun g => (cs.any fun c => s.uses c g) && ((cs.foldl State.shutGate s).users g).isEmpty

/-- A forced close of several channels' gates at one moment (R93): every one of the channels gives up what it holds at CARB, and then
each generator that has lost its last user becomes DRAINING, or FREE and granted at a cycle end, so that the result on a generator
does not depend on an order of the channels and no generator is granted to a channel that is closed. Two generators that become FREE
with waiters present are granted in a free order (R91). -/
def State.forceClose (s : State) (cs : List Chan) : State :=
  (cs.foldl State.shutGate s).forEach (s.deserted cs) fun g t => t.lastUserLeft g

/-! ### CAR_SET and CAR_STATUS -/

/-- The class and its values that a CAR_SET gives, if its fields are valid (R77). -/
def carSetFields? (cls : Byte) (period high : Half) : Option (Cls × CarrierClass) :=
  match index? 8 cls with
  | none => none
  | some k =>
    if 16 ≤ period.toNat ∧ 1 ≤ high.toNat ∧ high.toNat < period.toNat then
      some (k, ⟨period.toNat, high.toNat⟩)
    else none

/-- The state with a class table entry replaced. -/
def State.setClass (s : State) (k : Cls) (x : Option CarrierClass) : State :=
  { s with carb := { s.carb with classes := s.carb.classes.set k x } }

/-- CAR_SET in CARB (R77). -/
def ownerCarSet (cls : Byte) (period high : Half) (s : State) : Answer :=
  match carSetFields? cls period high with
  | none => refuse s .badField
  | some (k, x) =>
    if (s.holder k).isSome then refuse s .inUse
    else answerOk (s.setClass k (some x)) []

/-- A generator record of a CAR_STATUS reply (R176). DESIGN CHOICE (log 9): at the end of a cycle whose event is still to be
taken the phase is given as 0. -/
def State.genBytes (s : State) (g : GenId) : List Byte :=
  [(s.gen g).code,
    match (s.gen g).cls with | some k => byteOf k.val | none => noneByte,
    byteOf (s.users g).length,
    maskOf fun c => s.gateIs c g .opened,
    maskOf fun c => s.gateIs c g .opening]
  ++ natBytes2 (if s.cycleDue g then 0 else (s.gen g).phase)

/-- A wait list entry of a CAR_STATUS reply (R176). DESIGN CHOICE (log 28): a wait timer that stands at 0, its expiry still to be
taken, is given as 0, where the layout gives 1–255 for a running timer. -/
def State.waiterBytes (s : State) (w : Waiter) : List Byte :=
  [byteOf w.chan.val, byteOf w.cls.val,
    match (s.chan w.chan).waitTimer with | some t => byteOf (millisUp t) | none => 0x00#8]

/-- A class entry of a CAR_STATUS reply (R176). -/
def State.classBytes (s : State) (k : Cls) : List Byte :=
  match s.carrierClass k with
  | some x => 0x01#8 :: (natBytes2 x.period ++ natBytes2 x.high)
  | none => 0x00#8 :: (natBytes2 0 ++ natBytes2 0)

/-- CAR_STATUS in CARB (R95, R176). -/
def ownerCarStatus (part : Byte) (s : State) : Answer :=
  match part.toNat with
  | 0 =>
    answerOk s (part :: ((List.finRange 3).flatMap s.genBytes
      ++ byteOf s.carb.waitList.length :: s.carb.waitList.flatMap s.waiterBytes))
  | 1 => answerOk s (part :: (List.finRange 8).flatMap s.classBytes)
  | _ => refuse s .badField

end Sys2Proof.Machine
end

