-- ==== Sys2Proof/Machine/Playback.lean ====
section
/-! DEFINITION. The active job: starting, entering and ending steps, passes and chains, ending the job, the head decision that
follows, and holding (chapters 2 and 3). -/

namespace Sys2Proof.Machine

/-! ### Ending and dropping jobs -/

/-- Whether an ENDED report is made for a job that ends with an outcome (R61). -/
def endReported (j : Job) (o : JobOutcome) : Bool :=
  j.flags.reportEnd || decide (o ≠ .completed)

/-- The active job of a channel ends with an outcome: its carrier claims and its reference are given up and its ENDED report is
made (R60, R61). What the channel does next is the caller's. -/
def State.endJob (s : State) (c : Chan) (o : JobOutcome) : State :=
  match (s.chan c).active with
  | none => s
  | some a =>
    let t := ((s.giveUpCarrier c).modChan c fun ch => { ch with active := none, holdRequest := false }).dropRef a.job.pattern
    if endReported a.job o then t.jobReport c .ended a.job.number (byteOf a.job.pattern.val) o.byte else t

/-- A queue without one job. -/
def dropFromQueue (queue : List Job) (number : Half) : List Job :=
  queue.eraseP fun j => j.number == number

/-- A channel without one of its queued jobs; the armed head is forgotten, with its window, if it is that job (R39, R40). -/
def Channel.withoutJob (number : Half) (ch : Channel) : Channel :=
  { ch with
    queue := dropFromQueue ch.queue number
    armed := ch.armed.filter fun h => h.number != number }

/-- A queued job is dropped with a reason (R40, R44). The head decision, where one follows, is the caller's. -/
def State.dropJob (s : State) (c : Chan) (j : Job) (reason : DropReason) : State :=
  ((s.modChan c (Channel.withoutJob j.number)).dropRef j.pattern).jobReport c .dropped j.number (byteOf j.pattern.val)
    reason.code

/-- All queued jobs of a channel are dropped, from the head onward (R40). -/
def State.dropAll (s : State) (c : Chan) (reason : DropReason) : State :=
  (s.chan c).queue.foldl (fun s j => s.dropJob c j reason) s

/-! ### Step entry -/

/-- The time unit of a READY pattern in reference clocks. -/
def State.unitClocks (s : State) (p : PatId) : Nat :=
  match s.entry p with
  | .ready h _ _ => h.timeUnit.clocks
  | _ => 0

/-- The length of a step of a pattern in reference clocks: duration × time unit (R50). -/
def State.stepLength (s : State) (p : PatId) (x : Step) : Nat :=
  x.duration.toNat * s.unitClocks p

/-- The remaining time at which a sampled step takes its readback sample: 10 µs (R105). -/
def samplePoint : Nat :=
  10 * Config.clocksPerMicro

/-- Whether a step of a channel is sampled: readback on and a length of at least 100 µs (R105). -/
def sampled (cfg : LineConfig) (length : Nat) : Bool :=
  cfg.readback && decide (100 * Config.clocksPerMicro ≤ length)

/-- A MARK report at the entry of a marked step of a job with MARKS (R59). -/
def State.markEntry (s : State) (c : Chan) (a : Active) (x : Step) : State :=
  if x.mark && a.job.flags.marks then
    s.jobReport c .mark a.job.number (byteOf a.stepIndex) (byteOf a.job.pattern.val)
  else s

/-- Entry of an ACTIVE, INACTIVE or REST step: the step clock runs from the step's length and the channel is PLAYING (R50). -/
def Channel.enterSteady (length : Nat) (ch : Channel) : Channel :=
  { ch with
    state := .playing
    active := ch.active.map fun a =>
      { a with remaining := length, clock := .running, sampleDue := sampled ch.config length } }

/-- An active job at the entry of a CARRIER step whose gate is not yet open (R55). -/
def Active.enterCarrier (length : Nat) (a : Active) : Active :=
  { a with remaining := length, clock := .notStarted, sampleDue := false }

/-- The outcome with which a pending stop ends a job. -/
def Active.stopOutcome (a : Active) : Option JobOutcome :=
  a.stop.map fun p => p.outcome.outcome

/-- Entry of a CARRIER step of class k: the class is read, the MARK made and a generator asked for. An outcome is given if the
job ends at the entry: NO_CARRIER_CLASS, or the fixed outcome of a job that must wait with a pending stop (R55, R66). -/
def State.enterCarrierStep (s : State) (c : Chan) (a : Active) (x : Step) (k : Cls) : State × Option JobOutcome :=
  match s.carrierClass k with
  | none => (s, some .noCarrierClass)
  | some _ =>
    let t := ((s.modActive c (Active.enterCarrier (s.stepLength a.job.pattern x))).markEntry c a x).request c k
    (t, if (t.chan c).state = .carrierWait then a.stopOutcome else none)

/-- Entry of the step at the step index of the channel's active job (R50, R55). An outcome is given if the job ends at once. -/
def State.enterStep (s : State) (c : Chan) : State × Option JobOutcome :=
  match (s.chan c).active with
  | none => (s, none)
  | some a =>
    match s.currentStep a with
    | none => (s, none)
    | some x =>
      match x.kind with
      | .carrier k => s.enterCarrierStep c a x k
      | _ => ((s.modChan c (Channel.enterSteady (s.stepLength a.job.pattern x))).markEntry c a x, none)

/-! ### Job start and the head decision -/

/-- The repeat count of a READY pattern. -/
def State.repeatsOf (s : State) (p : PatId) : Byte :=
  match s.entry p with
  | .ready h _ _ => h.repeats
  | _ => 0x00#8

/-- The playing fields of a job that starts (R49). -/
def Job.starting (j : Job) (repeats : Byte) : Active where
  job := j
  stepIndex := 0
  passes := 0x00#8
  repeats := j.override.getD repeats
  remaining := 0
  clock := .notStarted
  stop := none
  attach := none
  sampleDue := false

/-- The head leaves the queue and becomes the active job; its window is discarded (R31), and with it the window of an armed head that
it has displaced. DESIGN CHOICE (log 30): that head's window starts afresh also where the new job ends in the event of its start. -/
def Channel.starting (j : Job) (rest : List Job) (repeats : Byte) (ch : Channel) : Channel :=
  { ch with state := .playing, queue := rest, armed := none, active := some (j.starting repeats) }

/-- A STARTED report for a job with REPORT_START (R45). -/
def State.startReport (s : State) (c : Chan) (j : Job) : State :=
  if j.flags.reportStart then s.jobReport c .started j.number (byteOf j.pattern.val) j.start.code else s

/-- The head job starts, up to the entry of its step 0 (R31). -/
def State.startJob (s : State) (c : Chan) (j : Job) (rest : List Job) : State :=
  (s.modChan c (Channel.starting j rest (s.repeatsOf j.pattern))).startReport c j

/-- The job's trigger window at its full value, none for a window of 0 (R35). -/
def Job.fullWindow (j : Job) : Option Nat :=
  if j.window = 0#16 then none else some (j.window.toNat * Config.clocksPerMilli)

/-- The armed head after a head decision for a SENSE or GO head: the same job's window runs on, another's starts afresh (R23). -/
def armHead (old : Option ArmedHead) (j : Job) : ArmedHead :=
  match old with
  | some h => if h.number = j.number then h else ⟨j.number, j.fullWindow, true⟩
  | none => ⟨j.number, j.fullWindow, true⟩

/-- A channel ARMED with a head (R23). -/
def Channel.armFor (j : Job) (rest : List Job) (ch : Channel) : Channel :=
  { ch with state := .armed, queue := j :: rest, armed := some (armHead ch.armed j) }

/-- A channel that finds its queue empty (R23). -/
def Channel.becomeIdle (ch : Channel) : Channel :=
  { ch with state := .idle, queue := [], armed := none }

/-- The head decision over a queue: an empty queue leaves the channel IDLE, a NOW head starts, a SENSE or GO head arms. A head
that ends in the event in which it starts is followed by the next (R23, R31). -/
def State.decideHead (c : Chan) : List Job → State → State
  | [], s => s.modChan c Channel.becomeIdle
  | j :: rest, s =>
    match j.start with
    | .now =>
      match (s.startJob c j rest).enterStep c with
      | (t, none) => t
      | (t, some o) => State.decideHead c rest (t.endJob c o)
    | _ => s.modChan c (Channel.armFor j rest)

/-- A channel takes the head decision (R23). -/
def State.headDecision (s : State) (c : Chan) : State :=
  State.decideHead c (s.chan c).queue s

/-- The armed head starts, its start condition met (R31, R33, R34). -/
def State.startHead (s : State) (c : Chan) : State :=
  match (s.chan c).queue with
  | [] => s
  | j :: rest =>
    match (s.startJob c j rest).enterStep c with
    | (t, none) => t
    | (t, some o) => State.decideHead c rest (t.endJob c o)

/-- A HELD channel's hold context once its active job has ended (R74). -/
def Channel.heldWithoutJob (ch : Channel) : Channel :=
  { ch with hold := ch.hold.map fun x => { x with resume := none } }

/-- What a channel does when its active job has ended: a HELD channel stays HELD, any other takes the head decision (R60). -/
def State.afterEnd (s : State) (c : Chan) : State :=
  if (s.chan c).state = .held then s.modChan c Channel.heldWithoutJob else s.headDecision c

/-- The active job ends and the channel goes on (R60). -/
def State.finishJob (s : State) (c : Chan) (o : JobOutcome) : State :=
  (s.endJob c o).afterEnd c

/-- The step at the step index is entered, and the job ends if the entry says so (R50, R55). -/
def State.enterNext (s : State) (c : Chan) : State :=
  match s.enterStep c with
  | (t, none) => t
  | (t, some o) => t.finishJob c o

/-! ### Step end -/

/-- What follows a step end: the job ends, or it goes on with the given playing fields (R52). -/
inductive StepNext where
  | ends (o : JobOutcome)
  | goesOn (a : Active)
deriving DecidableEq, Repr

/-- Passes done after one more pass, which stays at 255 (R53). -/
def passesAfter (passes : Byte) : Byte :=
  if passes = 0xFF#8 then 0xFF#8 else passes + 1#8

/-- The playing fields of a job that has chained to a READY target (R54). -/
def Active.chained (a : Active) (target : PatId) (h : Header) : Active :=
  { a with job := { a.job with pattern := target }, stepIndex := 0, passes := 0x00#8, repeats := h.repeats }

/-- The final action of a job's pattern (R7, R54). -/
def State.finalNext (s : State) (a : Active) : FinalAction → StepNext
  | .finish => .ends .completed
  | .chain target =>
    match s.entry target with
    | .ready h _ _ => .goesOn (a.chained target h)
    | _ => .ends .chainMissing

/-- What follows a completed pass of a job without a pending stop: the loop wrap or the final action (R52). -/
def State.passNext (s : State) (a : Active) (h : Header) : StepNext :=
  if a.repeats = 0x00#8 ∨ (passesAfter a.passes).toNat < a.repeats.toNat then
    .goesOn { a with stepIndex := h.loopStart, passes := passesAfter a.passes }
  else s.finalNext a h.final

/-- What follows the end of the step at the step index (R52): a pending STEP_END or NOW ends the job here and a pending PASS_END
at the end of the pass. -/
def State.nextStep (s : State) (a : Active) : StepNext :=
  match s.entry a.job.pattern with
  | .ready h _ _ =>
    match a.stop with
    | some p =>
      if p.boundary = .passEnd ∧ a.stepIndex + 1 < h.count then .goesOn { a with stepIndex := a.stepIndex + 1 }
      else .ends p.outcome.outcome
    | none =>
      if a.stepIndex + 1 < h.count then .goesOn { a with stepIndex := a.stepIndex + 1 }
      else s.passNext a h
  | _ => .ends .chainMissing

/-- Whether the step that follows continues the attachment of the step that ends: both are CARRIER steps of one class (R57). -/
def State.continues (s : State) (a next : Active) : Bool :=
  match (s.currentStep a).map Step.kind, (s.currentStep next).map Step.kind with
  | some (.carrier k), some (.carrier k') => a.attach.isSome && decide (k = k')
  | _, _ => false

/-- A channel with its active job's record replaced. -/
def Channel.withActive (a : Active) (ch : Channel) : Channel :=
  { ch with active := some a }

/-- Continuation of a carrier step in a step of the same class: the gate stays open and the step clock starts afresh (R57). -/
def State.continueStep (s : State) (c : Chan) (a : Active) : State :=
  match s.currentStep a with
  | none => s.modChan c (Channel.withActive a)
  | some x =>
    (s.modChan c (Channel.withActive { a with remaining := s.stepLength a.job.pattern x, clock := .running })).markEntry
      c a x

/-- The step end of a PLAYING channel: the next step is entered, or the job ends (R52, R54, R57, R94). -/
def State.stepEnd (s : State) (c : Chan) : State :=
  match (s.chan c).active with
  | none => s
  | some a =>
    match s.nextStep a with
    | .ends o => s.finishJob c o
    | .goesOn next =>
      if s.continues a next then (s.moveRef a.job.pattern next.job.pattern).continueStep c next
      else
        (((s.moveRef a.job.pattern next.job.pattern).modChan c (Channel.withActive next)).detach c).enterNext c

/-! ### Holding -/

/-- A job whose step clock stops at a hold. A step frozen at exactly 10 µs before its sample was taken takes none (R105). -/
def Active.frozenAt (a : Active) : Active :=
  { a with
    clock := if a.clock = .running then .frozen else a.clock
    sampleDue := a.sampleDue && decide (a.remaining ≠ samplePoint) }

/-- A channel that becomes HELD (R74). -/
def Channel.becomeHeld (heldFrom : HeldFrom) (resume : Option ResumePoint) (ch : Channel) : Channel :=
  { ch with
    state := .held
    hold := some ⟨heldFrom, resume⟩
    holdRequest := false
    active := ch.active.map Active.frozenAt }

/-- A HELD channel whose resume point is the entry of a step not yet entered (R71, R73, R74). DESIGN CHOICE (log 33): R74 says of the
step clock at IN_STEP and IN_CARRIER alone where it stands; at AT_ENTRY it is given as not started, which no reply shows. -/
def Channel.heldAtEntry (a : Active) (ch : Channel) : Channel :=
  { ch with
    hold := ch.hold.map fun x => { x with resume := some .atEntry }
    active := some { a with remaining := 0, clock := .notStarted, sampleDue := false } }

/-- What a channel does at the moment it becomes HELD with an active job: a job with a pending stop ends with its fixed outcome
(R66), and a completed step is ended by R52 while HELD (R71, R73). -/
def State.heldStep (s : State) (c : Chan) : State :=
  match (s.chan c).active with
  | none => s
  | some a =>
    match a.stopOutcome with
    | some o => s.finishJob c o
    | none =>
      if a.remaining = 0 then
        match s.nextStep a with
        | .ends o => s.finishJob c o
        | .goesOn next =>
          (s.moveRef a.job.pattern next.job.pattern).modChan c (Channel.heldAtEntry next)
      else s

/-- A channel with an active job becomes HELD: it gives up its carrier claims and freezes (R71 to R74). -/
def State.holdJob (s : State) (c : Chan) (heldFrom : HeldFrom) (resume : ResumePoint) : State :=
  ((s.giveUpCarrier c).modChan c (Channel.becomeHeld heldFrom (some resume))).heldStep c

/-- HOLD on one channel, by its state (R70). -/
def State.holdChannel (c : Chan) (s : State) : State :=
  match (s.chan c).state with
  | .idle => s.modChan c (Channel.becomeHeld .idle none)
  | .armed => s.modChan c (Channel.becomeHeld .armed none)
  | .playing =>
    match (s.chan c).attachment with
    | none => s.holdJob c .playing .inStep
    | some ⟨_, .opening⟩ => s.holdJob c .playing .inCarrier
    | some ⟨_, .opened⟩ => s.modChan c fun ch => { ch with holdRequest := true }
  | .carrierWait => s.holdJob c .carrierWait .inCarrier
  | .held | .off | .safe | .fault => s

/-- A HELD channel that goes on playing; the hold context is discarded (R75). -/
def Channel.leaveHeld (ch : Channel) : Channel :=
  { ch with state := .playing, hold := none }

/-- A step clock that runs on from where it was frozen (R75). -/
def Channel.runOn (ch : Channel) : Channel :=
  { ch with active := ch.active.map fun a => { a with clock := .running } }

/-- A held carrier step asks for a generator again, or ends NO_CARRIER_CLASS (R75). -/
def State.resumeCarrier (s : State) (c : Chan) : State :=
  match ((s.chan c).active.bind s.currentStep).map Step.kind with
  | some (.carrier k) =>
    match s.carrierClass k with
    | none => s.finishJob c .noCarrierClass
    | some _ => s.request c k
  | _ => s

/-- RESUME on one channel: a HELD channel goes on from its resume point, and a standing hold request is withdrawn (R75). -/
def State.resumeChannel (c : Chan) (s : State) : State :=
  match (s.chan c).state with
  | .held =>
    match (s.chan c).hold.bind HoldContext.resume with
    | none => (s.modChan c Channel.leaveHeld).headDecision c
    | some .inStep => (s.modChan c Channel.leaveHeld).modChan c Channel.runOn
    | some .inCarrier => (s.modChan c Channel.leaveHeld).resumeCarrier c
    | some .atEntry => (s.modChan c Channel.leaveHeld).enterNext c
  | .playing => s.modChan c fun ch => { ch with holdRequest := false }
  | _ => s

/-! ### Cycle ends -/

/-- What a cycle end of its generator does to one user: an opening gate opens, a hold request takes effect, and a gate whose
step has run out or whose stop is NOW closes (R56, R64, R73, R82). -/
def State.cycleEndUser (g : GenId) (c : Chan) (s : State) : State :=
  match (s.chan c).active with
  | none => s
  | some a =>
    match a.attach with
    | some ⟨_, .opening⟩ => s.modChan c (Channel.attached g .opened)
    | some ⟨_, .opened⟩ =>
      if (s.chan c).holdRequest then s.holdJob c .playing .inCarrier
      else if a.remaining = 0 ∨ a.stop.map PendingStop.boundary = some .now then s.stepEnd c
      else s
    | none => s

/-- A cycle end of a generator: a drain ends, or the next cycle begins with its high portion and every user is served
(R80, R87, R88). -/
def State.cycleEnd (s : State) (g : GenId) : State :=
  match s.gen g with
  | .free => s
  | .draining _ _ _ => s.releaseGen g
  | .running k _ _ => (s.setGen g (.running k 0 true)).forEach (s.users g) (State.cycleEndUser g)

/-- The high portion of a generator's cycle ends (R76, R100). -/
def Gen.endHigh : Gen → Gen
  | .free => .free
  | .running k phase _ => .running k phase false
  | .draining k phase _ => .draining k phase false

end Sys2Proof.Machine
end

