-- ==== Sys2Proof/Machine/Channels.lean ====
section
/-! DEFINITION. The channel controllers' commands: PLAY, CANCEL, STOP, HOLD, RESUME, GO, CH_STATUS, and CAR_CLEAR, which ends
waiting jobs; and the expiry of a channel's timers (chapters 2, 3 and 4). -/

namespace Sys2Proof.Machine

/-! ### Job numbers -/

/-- The numbers of a channel's jobs. -/
def Channel.jobNumbers (ch : Channel) : List Half :=
  (match ch.active with | some a => [a.job.number] | none => []) ++ ch.queue.map Job.number

/-- Whether an existing job holds a number (R25). -/
def State.numberUsed (s : State) (n : Half) : Bool :=
  (List.finRange 8).any fun c => (s.chan c).jobNumbers.contains n

/-- The number after a job number: 65535 is followed by 1 (R25). -/
def nextNumber (n : Half) : Half :=
  if n = 0xFFFF#16 then 1#16 else n + 1#16

/-- The first number from the counter's value on that no existing job holds (R25). -/
def State.freeNumber (s : State) : Nat → Half → Half
  | 0, n => n
  | k + 1, n => if s.numberUsed n then s.freeNumber k (nextNumber n) else n

/-- The number allocated to the next job: at most 40 jobs exist, so it is found within 41 steps (R25). -/
def State.allocatedNumber (s : State) : Half :=
  s.freeNumber 41 s.nextJob

/-! ### PLAY -/

/-- A queue with a job inserted after every job of equal or higher priority (R26). -/
def insertJob (j : Job) (queue : List Job) : List Job :=
  (queue.takeWhile fun x => j.priority ≤ x.priority) ++ j :: queue.dropWhile fun x => j.priority ≤ x.priority

/-- The start condition that a PLAY's start, line, edge and window give, if they are valid together (R27). -/
def playStart? (start line edge : Byte) (window : Half) : Option StartCond :=
  match start.toNat with
  | 0 => if line = 0x00#8 ∧ edge = 0x00#8 ∧ window = 0#16 then some .now else none
  | 1 =>
    match index? 8 line, edge? edge with
    | some l, some e => some (.sense l e)
    | _, _ => none
  | 2 => if line = 0x00#8 ∧ edge = 0x00#8 then some .go else none
  | _ => none

/-- The repeat override that a PLAY's flag and value give, if they are valid together (R27, R173). -/
def playOverride? (flag value : Byte) : Option (Option Byte) :=
  match flag.toNat with
  | 0 => if value = 0x00#8 then some none else none
  | 1 => some (some value)
  | _ => none

/-- The flags of a PLAY, if no other position is set (R27, R173). -/
def playFlags? (flags : Byte) : Option JobFlags :=
  if flags.toNat ≤ 15 then
    some ⟨flags.getLsbD 0, flags.getLsbD 1, flags.getLsbD 2, flags.getLsbD 3⟩
  else none

/-- The channel and the job record, its number still 0, that a PLAY gives, if its fields are valid (R24, R27). -/
def playJob? (p : PlayFields) : Option (Chan × Job) :=
  match index? 8 p.channel, index? 32 p.pattern, index? 4 p.priority, playStart? p.start p.line p.edge p.window,
    playOverride? p.overrideFlag p.override, playFlags? p.flags with
  | some c, some pat, some pri, some start, some ov, some flags =>
    some (c, ⟨0#16, pat, pri, start, p.window, ov, flags⟩)
  | _, _, _, _, _, _ => none

/-- The check of a PLAY against the channel and the pattern: the first that fails gives the status (R28). -/
def State.playRefusal (s : State) (c : Chan) (p : PatId) : Option Status :=
  if (s.chan c).state = .off ∨ (s.chan c).state = .fault then some .badState
  else if (s.chan c).state = .safe then some .safeState
  else if (s.entry p).isReady = false then some .notFound
  else if 4 ≤ (s.chan c).queue.length then some .queueFull
  else none

/-- Whether an accepted PLAY fixes the outcome of the channel's active job (R30). -/
def Channel.preemptedBy (ch : Channel) (j : Job) : Bool :=
  match ch.active with
  | some a => j.flags.preempt && decide (a.job.priority < j.priority) && a.stop.isNone
  | none => false

/-- A job with its outcome fixed as PREEMPTED, to end at its step end (R68). -/
def Active.preempt (a : Active) : Active :=
  { a with stop := some ⟨.stepEnd, .preempted⟩ }

/-- The active job is preempted: at once in CARRIER_WAIT and HELD, at its step end in PLAYING (R68). -/
def State.preempt (s : State) (c : Chan) : State :=
  if (s.chan c).state = .playing then s.modActive c Active.preempt else s.finishJob c .preempted

/-- The acceptance of a PLAY up to the insertion of the job: the counter, the reference count and the queue (R29). -/
def State.enqueue (s : State) (c : Chan) (j : Job) : State :=
  ({ s with nextJob := nextNumber j.number }.addRef j.pattern).modChan c
    fun ch => { ch with queue := insertJob j ch.queue }

/-- The effect of an accepted PLAY after the insertion (R29, R30). -/
def State.playEffect (s : State) (c : Chan) (preempted : Bool) : State :=
  match (s.chan c).state with
  | .idle | .armed => s.headDecision c
  | .playing | .carrierWait | .held => if preempted then s.preempt c else s
  | .off | .safe | .fault => s

/-- The queue position in the reply of a PLAY: the job's place in the queue, or 0 when it became the active job (R29, R182). -/
def Channel.position (ch : Channel) (number : Half) : Nat :=
  match ch.queue.findIdx? fun j => j.number == number with
  | some i => i + 1
  | none => 0

/-- An accepted PLAY (R29). -/
def State.acceptPlay (s : State) (c : Chan) (j : Job) : State :=
  (s.enqueue c j).playEffect c ((s.chan c).preemptedBy j)

/-- PLAY at the channel controllers (R27 to R30). -/
def ownerPlay (p : PlayFields) (s : State) : Answer :=
  match playJob? p with
  | none => refuse s .badField
  | some (c, j) =>
    match s.playRefusal c j.pattern with
    | some status => refuse s status
    | none =>
      let n := s.allocatedNumber
      let t := s.acceptPlay c { j with number := n }
      answerOk t (halfBytes n ++ [byteOf ((t.chan c).position n), flagByte ((s.chan c).preemptedBy j)])

/-! ### CANCEL -/

/-- Whether a channel is ARMED without its armed head, so that it takes the head decision (R40). -/
def Channel.headLost (ch : Channel) : Bool :=
  decide (ch.state = .armed) && ch.armed.isNone

/-- A queued job is dropped; the head decision follows if it was the armed head of an ARMED channel (R40). -/
def State.dropAndDecide (s : State) (c : Chan) (j : Job) (reason : DropReason) : State :=
  let t := s.dropJob c j reason
  if (t.chan c).headLost then t.headDecision c else t

/-- CANCEL at the channel controllers (R41). -/
def ownerCancel (channel : Byte) (job : Half) (s : State) : Answer :=
  match index? 8 channel with
  | none => refuse s .badField
  | some c =>
    if job = 0#16 then refuse s .badField
    else
      match (s.chan c).queue.find? fun j => j.number == job with
      | some j => answerOk (s.dropAndDecide c j .cancelled) []
      | none =>
        if (s.chan c).active.map (fun a => a.job.number) = some job then refuse s .badState
        else refuse s .notFound

/-! ### STOP -/

/-- The strength of a stop: NOW above STEP_END above PASS_END (R63). -/
def StopWhen.strength : StopWhen → Nat
  | .passEnd => 0
  | .stepEnd => 1
  | .now => 2

/-- A pending stop set or strengthened; a fixed outcome stays as it is (R63). -/
def strengthen (old : Option PendingStop) (w : StopWhen) : PendingStop :=
  match old with
  | none => ⟨w, .stopped⟩
  | some p => if p.boundary.strength < w.strength then { p with boundary := w } else p

/-- Whether a STOP ends the channel's active job at once: in CARRIER_WAIT and HELD with any when, in PLAYING with NOW unless the
gate is open (R62, R64, R66). -/
def Channel.stopsAtOnce (ch : Channel) (w : StopWhen) : Bool :=
  match ch.active with
  | none => false
  | some a =>
    match ch.state with
    | .carrierWait | .held => true
    | .playing => decide (w = .now) && decide (a.attach.map Attachment.gate ≠ some .opened)
    | _ => false

/-- The outcome of a job that a STOP ends at once: its fixed outcome, or STOPPED. -/
def Channel.stopOutcome (ch : Channel) : JobOutcome :=
  ((ch.active.bind Active.stopOutcome).getD .stopped)

/-- Whether a STOP has no effect on a channel in this state (R42). -/
def ChState.ignoresStop (x : ChState) : Bool :=
  decide (x = .off ∨ x = .safe ∨ x = .fault)

/-- A STOP's action on the active job, by the channel's record when the STOP was taken (R62); no head decision yet. -/
def State.stopJob (s : State) (c : Chan) (before : Channel) (w : StopWhen) : State :=
  if before.stopsAtOnce w then s.endJob c before.stopOutcome
  else if before.state = .playing then s.modActive c fun a => { a with stop := some (strengthen a.stop w) }
  else s

/-- What a channel does once a STOP has ended its job or flushed its queue (R42, R60). -/
def State.afterStop (s : State) (c : Chan) (before : Channel) (w : StopWhen) (flush : Bool) : State :=
  if before.stopsAtOnce w then s.afterEnd c
  else if flush && decide (before.state = .armed) then s.headDecision c
  else s

/-- STOP on one channel, by its record when the STOP was taken: first the active job, then the flush, then the head decision
(R42, R62). -/
def State.stopChannel (before : Chan → Channel) (w : StopWhen) (flush : Bool) (c : Chan) (s : State) : State :=
  if (before c).state.ignoresStop then s
  else
    let t := s.stopJob c (before c) w
    (if flush then t.dropAll c .flushed else t).afterStop c (before c) w flush

/-- Whether a STOP reaches an active job of the channel (R62). -/
def Channel.stopReaches (ch : Channel) : Bool :=
  !ch.state.ignoresStop && ch.active.isSome

/-- The jobs that a flush drops on the given channels (R42). -/
def State.flushCount (s : State) (cs : List Chan) : Nat :=
  (cs.map fun c => if (s.chan c).state.ignoresStop then 0 else (s.chan c).queue.length).sum

/-- The channels in CARRIER_WAIT among those that a STOP names give up their places on the wait list, all of them before any generator
is granted: the STOP ends their jobs by the state in which it finds them (R62, R66), so that a generator that becomes FREE in its event
goes to the waiters that it does not name (R91, log 32). -/
def State.withdrawWaiters (s : State) (cs : List Chan) : State :=
  (cs.filter fun c => decide ((s.chan c).state = .carrierWait)).foldl State.leaveWaitList s

/-- STOP at the channel controllers (R42, R62). -/
def ownerStop (mask boundary flush : Byte) (s : State) : Answer :=
  match stopWhen? boundary, flag? flush with
  | some w, some f =>
    if mask = 0x00#8 then refuse s .badField
    else
      answerOk ((s.withdrawWaiters (maskChans mask)).forEach (maskChans mask) (State.stopChannel s.chan w f))
        [maskOf fun c => mask.getLsbD c.val && (s.chan c).stopReaches,
          byteOf (if f then s.flushCount (maskChans mask) else 0)]
  | _, _ => refuse s .badField

/-! ### HOLD, RESUME and GO -/

/-- Whether HOLD acts on a channel in this state (R70). -/
def ChState.holdable (x : ChState) : Bool :=
  decide (x = .idle ∨ x = .armed ∨ x = .playing ∨ x = .carrierWait)

/-- HOLD at the channel controllers (R70). -/
def ownerHold (mask : Byte) (s : State) : Answer :=
  if mask = 0x00#8 then refuse s .badField
  else
    answerOk (s.forEach (maskChans mask) State.holdChannel)
      [maskOf fun c => mask.getLsbD c.val && (s.chan c).state.holdable]

/-- Whether RESUME acts on a channel (R75). -/
def Channel.resumable (ch : Channel) : Bool :=
  decide (ch.state = .held) || (decide (ch.state = .playing) && ch.holdRequest)

/-- RESUME at the channel controllers (R75). -/
def ownerResume (mask : Byte) (s : State) : Answer :=
  if mask = 0x00#8 then refuse s .badField
  else
    answerOk (s.forEach (maskChans mask) State.resumeChannel)
      [maskOf fun c => mask.getLsbD c.val && (s.chan c).resumable]

/-- Whether a channel is ARMED with a GO head (R34). -/
def Channel.goReady (ch : Channel) : Bool :=
  decide (ch.state = .armed) && decide (ch.queue.head?.map Job.start = some .go)

/-- GO at the channel controllers (R34). -/
def ownerGo (mask : Byte) (s : State) : Answer :=
  if mask = 0x00#8 then refuse s .badField
  else
    answerOk (s.forEach ((maskChans mask).filter fun c => (s.chan c).goReady) fun c t => t.startHead c)
      [maskOf fun c => mask.getLsbD c.val && (s.chan c).goReady]

/-! ### CAR_CLEAR -/

/-- The channels on the wait list that want a class, in wait-list order. -/
def State.waitersFor (s : State) (k : Cls) : List Chan :=
  (s.carb.waitList.filter fun w => w.cls = k).map Waiter.chan

/-- CAR_CLEAR in CARB: the class becomes undefined and the jobs waiting for it end, in wait-list order (R78). -/
def ownerCarClear (cls : Byte) (s : State) : Answer :=
  match index? 8 cls with
  | none => refuse s .badField
  | some k =>
    if (s.holder k).isSome then refuse s .inUse
    else if (s.carrierClass k).isNone then answerOk s [0x00#8]
    else
      answerOk ((s.waitersFor k).foldl (fun t c => t.finishJob c .noCarrierClass) (s.setClass k none))
        [byteOf (s.waitersFor k).length]

/-! ### CH_STATUS -/

/-- The state byte of a CH_STATUS reply (R175). -/
def Channel.stateByte (ch : Channel) : Byte :=
  byteOf (ch.state.code + match ch.hold with | some h => 16 * h.heldFrom.state.code | none => 0)

/-- The configuration A byte of a CH_STATUS reply (R175). -/
def LineConfig.byteA (cfg : LineConfig) : Byte :=
  byteOf (cfg.activeLow.toNat + 2 * cfg.openDrain.toNat + 4 * cfg.restActive.toNat + 8 * cfg.readback.toNat
    + 16 * cfg.safeOnLease.toNat + 32 * cfg.safeLevel.code)

/-- The flags byte of a job (R173). -/
def JobFlags.byte (f : JobFlags) : Byte :=
  byteOf (f.preempt.toNat + 2 * f.reportStart.toNat + 4 * f.reportEnd.toNat + 8 * f.marks.toNat)

/-- The byte that carries a job's priority and pattern id (R175). -/
def Job.placeByte (j : Job) : Byte :=
  byteOf (j.priority.val * 32 + j.pattern.val)

/-- The stop byte of the active job block (R175). -/
def stopByte (stop : Option PendingStop) (holdRequest : Bool) : Byte :=
  byteOf ((match stop with | some p => p.boundary.code + 16 * p.outcome.code | none => 0) + 4 * holdRequest.toNat)

/-- The attachment byte of the active job block (R175). -/
def attachByte : Option Attachment → Byte
  | none => 0x00#8
  | some ⟨g, .opening⟩ => byteOf (16 + g.val)
  | some ⟨g, .opened⟩ => byteOf (32 + g.val)

/-- The active job block of a CH_STATUS reply (R175). DESIGN CHOICE (log 28): a wait timer that stands at 0, its expiry still to
be taken, is given as 0. -/
def Channel.activeBytes (ch : Channel) : List Byte :=
  match ch.active with
  | none => []
  | some a =>
    halfBytes a.job.number ++ [a.job.placeByte, a.job.flags.byte, byteOf a.stepIndex, a.passes,
      stopByte a.stop ch.holdRequest, attachByte a.attach] ++ wordBytes (BitVec.ofNat 32 (micros a.remaining))
      ++ [match ch.waitTimer with | some t => byteOf (millisUp t) | none => 0x00#8]

/-- The condition byte of a queue entry (R175). -/
def Job.conditionByte (j : Job) : Byte :=
  byteOf ((match j.start with | .now => 0 | .go => 1 | .sense l e => 128 + 8 * e.code + l.val)
    + if j.override.isSome then 64 else 0)

/-- A queue entry of a CH_STATUS reply (R175). -/
def Job.queueBytes (j : Job) : List Byte :=
  halfBytes j.number ++ [j.placeByte, j.conditionByte] ++ halfBytes j.window ++ [j.override.getD 0x00#8]

/-- The armed head's window in a CH_STATUS reply (R175). DESIGN CHOICE (log 28): a window that stands at 0, its expiry still to be
taken, or frozen at 0 by a HOLD taken first (log 29), is given as 0, where the layout gives 1–65535 for a running window. -/
def Channel.windowBytes (ch : Channel) : List Byte :=
  natBytes2 (match ch.armed.bind ArmedHead.window with | some t => millisUp t | none => 0)

/-- The fields of a CH_STATUS reply (R46, R175). -/
def Channel.statusBytes (ch : Channel) : List Byte :=
  [ch.stateByte, ch.config.byteA, ch.config.waitLimit,
    byteOf ((if ch.active.isSome then 16 else 0) + ch.queue.length)]
  ++ ch.windowBytes ++ ch.activeBytes ++ ch.queue.flatMap Job.queueBytes

/-- CH_STATUS at the channel controllers (R46). -/
def ownerChStatus (channel : Byte) (s : State) : Answer :=
  match index? 8 channel with
  | none => refuse s .badField
  | some c => answerOk s (s.chan c).statusBytes

/-! ### Expiry of a channel's timers -/

/-- Whether the armed head's trigger window has reached 0 (R35, R36). -/
def Channel.windowExpired (ch : Channel) : Bool :=
  decide (ch.state = .armed) && decide (ch.armed.bind ArmedHead.window = some 0)

/-- The armed head is dropped TRIGGER_TIMEOUT and the channel takes the head decision (R36). -/
def State.expireWindow (s : State) (c : Chan) : State :=
  match (s.chan c).queue with
  | [] => s
  | j :: _ => s.dropAndDecide c j .triggerTimeout

/-- Whether the carrier-wait timer has reached 0 (R85). -/
def Channel.waitExpired (ch : Channel) : Bool :=
  decide (ch.state = .carrierWait) && decide (ch.waitTimer = some 0)

/-- Whether the step clock of an ACTIVE, INACTIVE or REST step has reached 0 (R51). -/
def Channel.stepExpired (ch : Channel) : Bool :=
  match ch.active with
  | none => false
  | some a =>
    decide (ch.state = .playing) && a.attach.isNone && decide (a.clock = .running) && decide (a.remaining = 0)

end Sys2Proof.Machine
end

