-- ==== Sys2Proof/Machine/Lines.lean ====
section
/-! DEFINITION. The output lines: line configuration, enabling and disabling, faults and readback, and LINES (chapter 5). -/

namespace Sys2Proof.Machine

/-- Every channel's record changed by a function of the channel. -/
def State.mapChans (s : State) (f : Chan → Channel → Channel) : State :=
  { s with chans := Vector.ofFn fun c => f c (s.chan c) }

/-- A channel leaves for OFF, SAFE or FAULT in one event: its active job ends, its queued jobs are dropped after the ENDED report,
and its hold context, windows and timers are discarded (R43, R60, R104, R107, R143). -/
def State.evict (s : State) (c : Chan) (o : JobOutcome) (reason : DropReason) (state : ChState) : State :=
  ((s.endJob c o).dropAll c reason).modChan c fun ch => Channel.empty state ch.config

/-- Several channels leave for OFF or SAFE in one event: their gates close and their places on the wait list are given up first
(R93), and then each channel goes on its own, in a free order (R104, R143). -/
def State.evictAll (s : State) (cs : List Chan) (o : JobOutcome) (reason : DropReason) (state : ChState) : State :=
  (s.forceClose cs).forEach cs fun c t => t.evict c o reason state

/-! ### CH_CONFIG -/

/-- The channel and the line configuration that a CH_CONFIG gives, if its fields are valid (R99). -/
def lineConfig? (p : ConfigFields) : Option (Chan × LineConfig) :=
  match index? 8 p.channel, flag? p.polarity, flag? p.drive, flag? p.rest, safeLevel? p.safe, flag? p.readback,
    flag? p.safeOnLease with
  | some c, some pol, some drv, some rest, some sf, some rb, some sol =>
    if p.waitLimit.toNat ≤ 255 then some (c, ⟨pol, drv, rest, sf, rb, sol, byteOf p.waitLimit.toNat⟩) else none
  | _, _, _, _, _, _, _ => none

/-- CH_CONFIG at the channel controllers (R99). -/
def ownerChConfig (p : ConfigFields) (s : State) : Answer :=
  match lineConfig? p with
  | none => refuse s .badField
  | some (c, cfg) =>
    if (s.chan c).state = .off then answerOk (s.modChan c fun ch => { ch with config := cfg }) []
    else refuse s .badState

/-! ### CH_ENABLE, CH_DISABLE and CLEAR_FAULT -/

/-- The state in which a channel is enabled or leaves FAULT: SAFE under an EXPIRED lease with safe-on-lease on, otherwise IDLE
(R102, R108). -/
def LeaseTimer.entryState (l : LeaseTimer) (cfg : LineConfig) : ChState :=
  if l.state = .expired ∧ cfg.safeOnLease = true then .safe else .idle

/-- The named channels in one state go to the state in which a channel is enabled (R102, R108). -/
def State.enlist (s : State) (mask : Byte) (x : ChState) : State :=
  s.mapChans fun c ch =>
    if mask.getLsbD c.val && decide (ch.state = x) then { ch with state := s.lease.entryState ch.config } else ch

/-- The named channels in one state, as a mask. -/
def State.inState (s : State) (mask : Byte) (x : ChState) : Byte :=
  maskOf fun c => mask.getLsbD c.val && decide ((s.chan c).state = x)

/-- CH_ENABLE at the channel controllers (R102). -/
def ownerChEnable (mask : Byte) (s : State) : Answer :=
  if mask = 0x00#8 then refuse s .badField
  else answerOk (s.enlist mask .off) [s.inState mask .off]

/-- CLEAR_FAULT at the channel controllers (R108). -/
def ownerClearFault (mask : Byte) (s : State) : Answer :=
  if mask = 0x00#8 then refuse s .badField
  else answerOk (s.enlist mask .fault) [s.inState mask .fault]

/-- Whether a channel has an active job or a queued job (R103). -/
def Channel.hasJob (ch : Channel) : Bool :=
  ch.active.isSome || !ch.queue.isEmpty

/-- The named channels in an enabled state, as a mask (R103, R104). -/
def State.enabledMask (s : State) (mask : Byte) : Byte :=
  maskOf fun c => mask.getLsbD c.val && decide ((s.chan c).state ≠ .off)

/-- CH_DISABLE without force: the named channels become OFF unless one of them has a job (R103). -/
def disableIdle (mask : Byte) (s : State) : Answer :=
  if (maskChans mask).any fun c => (s.chan c).hasJob then refuse s .badState
  else
    answerOk
      (s.mapChans fun c ch =>
        if mask.getLsbD c.val && decide (ch.state ≠ .off) then Channel.empty .off ch.config else ch)
      [s.enabledMask mask]

/-- CH_DISABLE with force: the named enabled channels go to OFF, whatever they hold (R104). DEDUCED (log 31): CARB settles the
claims of all of them together, as R93 says of lease expiry. -/
def disableForce (mask : Byte) (s : State) : Answer :=
  answerOk
    (s.evictAll ((maskChans mask).filter fun c => decide ((s.chan c).state ≠ .off)) .disabled .disabled .off)
    [s.enabledMask mask]

/-- CH_DISABLE at the channel controllers (R103, R104). -/
def ownerChDisable (mask force : Byte) (s : State) : Answer :=
  if mask = 0x00#8 then refuse s .badField
  else
    match flag? force with
    | none => refuse s .badField
    | some false => disableIdle mask s
    | some true => disableForce mask s

/-! ### LINES -/

/-- The levels at the OUT pins at this moment, which the board decides (R109, log 3). -/
def State.outLevels (s : State) : BitVec 8 :=
  Config.outPins s.clock (s.outs.toList.map Driven.code)

/-- LINES (R109). -/
def ownerLines (s : State) : Answer :=
  answerOk s
    (((List.finRange 8).flatMap fun c => [byteOf s.outs[c].code, flagByte (s.outLevels.getLsbD c.val)])
      ++ (List.finRange 8).flatMap fun l => [flagByte (s.senseLine l).raw, flagByte (s.senseLine l).filtered])

/-! ### Readback -/

/-- Whether a channel's readback sample is due at this moment (R105). -/
def Channel.readbackDue (ch : Channel) : Bool :=
  match ch.active with
  | none => false
  | some a =>
    decide (ch.state = .playing) && a.attach.isNone && decide (a.clock = .running) && a.sampleDue
      && decide (a.remaining = samplePoint)

/-- The pin level that a driven state calls for (R105). -/
def Driven.expected : Driven → Bool
  | .low => false
  | .high => true
  | .released => true

/-- A readback sample: agreement has no effect, a mismatch puts the channel into FAULT (R105, R107). -/
def State.readback (s : State) (c : Chan) (observed : Bool) : State :=
  if s.outs[c].expected = observed then s.modActive c fun a => { a with sampleDue := false }
  else s.evict c (.lineFault s.outs[c].expected observed) .lineFault .fault

end Sys2Proof.Machine
end

