-- ==== Sys2Proof/Machine/Sense.lean ====
section
/-! DEFINITION. The sense unit: sampling, filtering, edges and SN_CONFIG (chapter 6). -/

namespace Sys2Proof.Machine

/-- The reference clocks from one sample of the grid to the next: 100 µs (R112). -/
def samplePeriod : Nat :=
  100 * Config.clocksPerMicro

/-- Whether the next sample of the grid is due (R112). -/
def SenseUnit.sampleDue (u : SenseUnit) : Bool :=
  decide (samplePeriod ≤ u.grid)

/-- Whether a sample of a line produces an edge: the level has differed from the filtered level at F + 1 samples in a row
(R113). -/
def SenseLine.accepts (x : SenseLine) (level : Bool) : Bool :=
  decide (level ≠ x.filtered) && decide (x.filter.toNat ≤ x.progress)

/-- A line's record after a sample (R112, R113). -/
def SenseLine.sample (x : SenseLine) (level : Bool) : SenseLine :=
  if level = x.filtered then { x with raw := level, progress := 0 }
  else if x.accepts level then { x with raw := level, filtered := level, progress := 0 }
  else { x with raw := level, progress := x.progress + 1 }

/-- The edges that a sample produces, each with its line and whether it is a RISE, in line order (R113, R115). -/
def State.edges (s : State) (levels : BitVec 8) : List (Line × Bool) :=
  (List.finRange 8).filterMap fun l =>
    if (s.senseLine l).accepts (levels.getLsbD l.val) then some (l, levels.getLsbD l.val) else none

/-- Whether a report selection includes a direction (R116). -/
def Selection.includes : Selection → Bool → Bool
  | .none, _ => false
  | .rise, up => up
  | .fall, up => !up
  | .both, _ => true

/-- The SENSE report of an edge, where the line's selection includes it (R116). -/
def State.reportEdge (s : State) (e : Line × Bool) : State :=
  if (s.senseLine e.1).selection.includes e.2 then
    s.report (.line e.1) .sense (some e.1) 0#16 (if e.2 then 0x01#8 else 0x02#8) (flagByte e.2)
  else s

/-- Whether an edge selection matches a direction (R33). -/
def EdgeSel.admits : EdgeSel → Bool → Bool
  | .rise, up => up
  | .fall, up => !up
  | .either, _ => true

/-- Whether one of the edges starts the channel's head: the channel is ARMED with a matching SENSE head that became the armed
head before this moment (R33). -/
def Channel.startsOn (ch : Channel) (edges : List (Line × Bool)) : Bool :=
  decide (ch.state = .armed) && (ch.armed.any fun h => !h.fresh) &&
    match ch.queue.head?.map Job.start with
    | some (.sense l sel) => edges.any fun e => decide (e.1 = l) && sel.admits e.2
    | _ => false

/-- A sample of all eight lines: the records follow, the edges are reported and start the heads they match
(R112, R113, R115, R116). -/
def State.sampleLines (s : State) (levels : BitVec 8) : State :=
  let edges := s.edges levels
  let t := edges.foldl State.reportEdge
    { s with sense := ⟨Vector.ofFn fun l => (s.senseLine l).sample (levels.getLsbD l.val), 0⟩ }
  t.forEach (chansWith fun c => (s.chan c).startsOn edges) fun c u => u.startHead c

/-- A line's record with new settings and its progress restarted (R117). -/
def SenseLine.configured (x : SenseLine) (selection : Selection) (filter : Byte) : SenseLine :=
  { x with selection := selection, filter := filter, progress := 0 }

/-- SN_CONFIG in the sense unit (R117). -/
def ownerSnConfig (line selection filter : Byte) (s : State) : Answer :=
  match index? 8 line, selection? selection with
  | some l, some sel =>
    answerOk { s with sense := { s.sense with lines := s.sense.lines.set l ((s.senseLine l).configured sel filter) } }
      [(s.senseLine l).selection.code, (s.senseLine l).filter, flagByte (s.senseLine l).filtered]
  | _, _ => refuse s .badField

end Sys2Proof.Machine
end

