-- ==== Sys2Proof/Machine/Reports.lean ====
section
/-! DEFINITION. RPT, the report unit: TIME, ATTN_CONFIG, FETCH and ACK, and the hold age (chapter 7). -/

namespace Sys2Proof.Machine

/-- TIME in RPT (R124). -/
def ownerTime (s : State) : Answer :=
  answerOk s (wordBytes s.rpt.partTime ++ [s.rpt.nextSequence])

/-- The report unit with new attention settings. A new hold time is applied to the age of the oldest undelivered record,
reckoned from its stamp (R135, R136). -/
def ReportUnit.configure (u : ReportUnit) (enable : Bool) (threshold : Nat) (holdTime : Byte) : ReportUnit :=
  let v := { u with enable := enable, threshold := threshold, holdTime := holdTime }
  if holdTime = u.holdTime then v else { v with ageReached := v.reckonAge }

/-- ATTN_CONFIG in RPT (R136). -/
def ownerAttnConfig (enable threshold holdTime : Byte) (s : State) : Answer :=
  match flag? enable with
  | none => refuse s .badField
  | some e =>
    if 1 ≤ threshold.toNat ∧ threshold.toNat ≤ 31 then
      answerOk { s with rpt := s.rpt.configure e threshold.toNat holdTime }
        [flagByte s.rpt.enable, byteOf s.rpt.threshold, s.rpt.holdTime, byteOf s.rpt.undelivered]
    else refuse s .badField

/-- The report unit without its outstanding batch, whose records are gone (R130, R132). -/
def ReportUnit.removeBatch (u : ReportUnit) : ReportUnit :=
  { u with queue := u.queue.drop u.batchSize, batch := none }

/-- The report unit with a new batch of the oldest records, at most k, formed after the removal of the old one (R130). -/
def ReportUnit.newBatch (u : ReportUnit) (k : Nat) (tag : Byte) : ReportUnit :=
  let v := u.removeBatch
  let w := { v with batch := if v.queue.isEmpty then none else some ⟨tag, min k v.queue.length⟩ }
  { w with ageReached := w.reckonAge }

/-- The records of the outstanding batch (R129). -/
def ReportUnit.batchRecords (u : ReportUnit) : List Record :=
  u.queue.take u.batchSize

/-- The fields of a FETCH reply (section 10.4). -/
def ReportUnit.fetchBytes (u : ReportUnit) : List Byte :=
  [byteOf u.batchSize, byteOf u.undelivered] ++ u.batchRecords.flatMap Record.bytes

/-- Whether a FETCH with a tag is answered with the outstanding batch again (R130). -/
def ReportUnit.redelivers (u : ReportUnit) (tag : Byte) : Bool :=
  match u.batch with
  | some b => decide (b.tag = tag) && decide (tag ≠ 0x00#8)
  | none => false

/-- The report unit after a FETCH of at most k records (R130). -/
def ReportUnit.fetch (u : ReportUnit) (k : Nat) (tag : Byte) : ReportUnit :=
  if u.redelivers tag then u else u.newBatch k tag

/-- FETCH in RPT (R130). -/
def ownerFetch (k tag : Byte) (s : State) : Answer :=
  if 1 ≤ k.toNat ∧ k.toNat ≤ 4 then
    answerOk { s with rpt := s.rpt.fetch k.toNat tag } (s.rpt.fetch k.toNat tag).fetchBytes
  else refuse s .badField

/-- ACK in RPT (R132). -/
def ownerAck (batchTag : Byte) (s : State) : Answer :=
  match s.rpt.batch with
  | some b =>
    if b.tag = batchTag then
      answerOk { s with rpt := s.rpt.removeBatch } [byteOf b.size, byteOf s.rpt.removeBatch.undelivered]
    else refuse s .notFound
  | none => refuse s .notFound

/-- Whether the oldest undelivered record has reached the hold age and the event is still to be taken (R135). -/
def ReportUnit.ageDue (u : ReportUnit) : Bool :=
  !u.ageReached && u.reckonAge

end Sys2Proof.Machine
end

