-- ==== Sys2Proof/Machine/Lease.lean ====
section
/-! DEFINITION. LEASE, the lease timer: LEASE, RECOVER, renewal and expiry (chapter 8). -/

namespace Sys2Proof.Machine

/-- A period's full time in reference clocks. -/
def leaseClocks (period : Nat) : Nat :=
  period * Config.clocksPerMilli

/-- The lease timer with a new period: OFF for 0, otherwise RUNNING at the full period (R140). -/
def LeaseTimer.withPeriod (period : Nat) : LeaseTimer where
  period := period
  state := if period = 0 then .off else .running (leaseClocks period)

/-- Whether a period of LEASE is valid (R140). -/
def validPeriod (period : Nat) : Bool :=
  decide (period = 0) || (decide (10 ≤ period) && decide (period ≤ 60000))

/-- LEASE in the lease timer (R140). -/
def ownerLease (period : Half) (s : State) : Answer :=
  if validPeriod period.toNat then
    if s.lease.state = .expired then refuse s .badState
    else
      answerOk { s with lease := .withPeriod period.toNat }
        (natBytes2 s.lease.period ++ [(LeaseTimer.withPeriod period.toNat).state.code])
  else refuse s .badField

/-- A RUNNING lease renewed to its full period; in OFF and EXPIRED nothing changes (R141). -/
def LeaseTimer.renewed (l : LeaseTimer) : LeaseTimer :=
  match l.state with
  | .running _ => { l with state := .running (leaseClocks l.period) }
  | _ => l

/-- The lease timer RUNNING at its full period (R145). -/
def LeaseTimer.restarted (l : LeaseTimer) : LeaseTimer :=
  { l with state := .running (leaseClocks l.period) }

/-- RECOVER in the lease timer: every SAFE channel becomes IDLE and the lease runs again (R145). -/
def ownerRecover (s : State) : Answer :=
  if s.lease.state = .expired then
    answerOk
      { s.mapChans (fun _ ch => if ch.state = .safe then { ch with state := .idle } else ch) with
        lease := s.lease.restarted }
      [s.inState 0xFF#8 .safe]
  else refuse s .badState

/-- Whether the remaining time of a RUNNING lease has reached 0 (R139). -/
def LeaseTimer.due (l : LeaseTimer) : Bool :=
  decide (l.state = .running 0)

/-- Whether lease expiry takes a channel to SAFE (R143). -/
def Channel.goesSafe (ch : Channel) : Bool :=
  ch.config.safeOnLease
    && decide (ch.state ≠ .off ∧ ch.state ≠ .safe ∧ ch.state ≠ .fault)

/-- Lease expiry: the lease is EXPIRED, the flagged channels go to SAFE with their reports, and LEASE_EXPIRED names them
(R142, R143). -/
def State.expireLease (s : State) : State :=
  let t := { s with lease := { s.lease with state := .expired } }
  (t.evictAll (chansWith fun c => (s.chan c).goesSafe) .safe .safe .safe).report
    .lease .leaseExpired none 0#16 (maskOf fun c => (s.chan c).goesSafe) 0x00#8

end Sys2Proof.Machine
end

