-- ==== Sys2Proof/Machine/Unit.lean ====
section
/-! DEFINITION. The unit commands IDENT, STATUS and RESET, and the resets (sections 10.6, 2.11 and the reset values of every
chapter). -/

namespace Sys2Proof.Machine

/-- The fixed identity values of the part (R177). -/
def identityBytes : List Byte :=
  [0x5D#8, 0x21#8, 0x00#8, 0x84#8, 0x02#8, 8#8, 8#8, 3#8, 8#8, 32#8] ++ natBytes2 Config.poolSteps

/-- IDENT (R177). -/
def ownerIdent (s : State) : Answer :=
  answerOk s identityBytes

/-- The lease's remaining time in a STATUS reply, 0 when not RUNNING (R178). -/
def LeaseState.micros : LeaseState → Nat
  | .running t => Machine.micros t
  | _ => 0

/-- The number of READY entries (R178). -/
def PatternTable.readyCount (t : PatternTable) : Nat :=
  t.entries.toList.countP Entry.isReady

/-- The load slot in a STATUS reply (R178). -/
def PatternTable.slotByte (t : PatternTable) : Byte :=
  match t.load with
  | some l => byteOf l.id.val
  | none => noneByte

/-- The five link error counters in a STATUS reply (R178). -/
def Counters.bytes (x : Counters) : List Byte :=
  halfBytes x.oversize ++ halfBytes x.framing ++ halfBytes x.gap ++ halfBytes x.check ++ halfBytes x.overrun

/-- The fields of a STATUS reply (R178). -/
def State.statusBytes (s : State) : List Byte :=
  s.lease.state.code :: wordBytes (BitVec.ofNat 32 s.lease.state.micros) ++ s.freeStepsBytes
    ++ [byteOf s.ptab.readyCount, s.ptab.slotByte, byteOf s.rpt.queue.length, byteOf s.rpt.undelivered,
      byteOf s.rpt.batchSize, flagByte s.rpt.attention]
    ++ s.link.counters.bytes
    ++ (List.finRange 8).map (fun c => byteOf (s.chan c).state.code)
    ++ (List.finRange 3).map fun g => (s.gen g).code

/-- The state with the link error counters at 0 (R155). -/
def State.clearCounters (s : State) : State :=
  { s with link := { s.link with counters := .zero } }

/-- STATUS (R178). -/
def ownerStatus (clear : Byte) (s : State) : Answer :=
  match flag? clear with
  | none => refuse s .badField
  | some f => answerOk (if f then s.clearCounters else s) s.statusBytes

/-- RESET at its execution: the reply is formed and nothing is reset yet (R179). -/
def ownerReset (scope : Byte) (s : State) : Answer :=
  match scope? scope with
  | none => refuse s .badField
  | some x => ⟨s, [statusOk, scope], some x⟩

/-! ### RESET OUTPUTS taking effect -/

/-- The jobs, active and queued, of a channel. -/
def Channel.jobCount (ch : Channel) : Nat :=
  (if ch.active.isSome then 1 else 0) + ch.queue.length

/-- The jobs that exist on all channels (R138). -/
def State.jobCount (s : State) : Nat :=
  ((List.finRange 8).map fun c => (s.chan c).jobCount).sum

/-- The lease after a RESET OUTPUTS (R147). -/
def LeaseTimer.afterOutputsReset (l : LeaseTimer) : LeaseTimer :=
  match l.state with
  | .off => l
  | _ => l.restarted

/-- A RESET OUTPUTS takes effect (R180, R21, R48, R97, R138, R147). -/
def State.resetOutputs (s : State) : State :=
  let t := s.mapChans fun _ ch => Channel.empty (if ch.state = .off then .off else .idle) ch.config
  { t with
    ptab := { t.ptab with entries := Vector.ofFn fun p => (s.entry p).clearRefs }
    carb := { t.carb with gens := Vector.replicate 3 .free, waitList := [] }
    lease := t.lease.afterOutputsReset }.report .unit .outputsReset none 0#16 (byteOf s.jobCount) 0x00#8

/-! ### RESET ALL and the hardware reset -/

/-- The part after a hardware reset with the given straps and first sample, the waiting commands and the model's own counters
kept (R165). -/
def State.hardReset (s : State) (address : BitVec 4) (rate : BitVec 2) (sense : BitVec 8) : State :=
  { State.afterReset address rate sense with choices := s.choices, clock := s.clock, pending := s.pending }

/-- A RESET ALL takes effect: the values after a hardware reset, the straps kept (R166, R181). -/
def State.resetAll (s : State) (sense : BitVec 8) : State :=
  s.hardReset s.link.address s.link.rate sense

end Sys2Proof.Machine
end

