-- ==== Sys2Proof/Machine/Link.lean ====
section
/-! DEFINITION. LINK, the host link: the receiver, addressing, the pending buffer, the execution of a frame, the reply and its
cache, and the end of a reply (chapter 9). -/

namespace Sys2Proof.Machine

/-! ### Dispatch to the owning blocks -/

/-- The owning block's execution of a command whose frame bears the given tag: its field and state checks, its effects and its
reply (R159, R169). -/
def owner (r : Request) (tag : Byte) (s : State) : Answer :=
  match r with
  | .ident => ownerIdent s
  | .status clear => ownerStatus clear s
  | .reset scope => ownerReset scope s
  | .lease period => ownerLease period s
  | .recover => ownerRecover s
  | .time => ownerTime s
  | .attnConfig enable threshold holdTime => ownerAttnConfig enable threshold holdTime s
  | .fetch k => ownerFetch k tag s
  | .ack batchTag => ownerAck batchTag s
  | .patOpen p => ownerPatOpen p s
  | .patSteps id first records => ownerPatSteps id first records s
  | .patSeal id => ownerPatSeal id s
  | .patDiscard id => ownerPatDiscard id s
  | .patDelete id => ownerPatDelete id s
  | .patInfo id => ownerPatInfo id s
  | .patRead id first count => ownerPatRead id first count s
  | .carSet cls period high => ownerCarSet cls period high s
  | .carClear cls => ownerCarClear cls s
  | .carStatus part => ownerCarStatus part s
  | .chConfig p => ownerChConfig p s
  | .chEnable mask => ownerChEnable mask s
  | .chDisable mask force => ownerChDisable mask force s
  | .play p => ownerPlay p s
  | .cancel channel job => ownerCancel channel job s
  | .stop mask boundary flush => ownerStop mask boundary flush s
  | .hold mask => ownerHold mask s
  | .resume mask => ownerResume mask s
  | .go mask => ownerGo mask s
  | .clearFault mask => ownerClearFault mask s
  | .chStatus channel => ownerChStatus channel s
  | .snConfig line selection filter => ownerSnConfig line selection filter s
  | .lines => ownerLines s

/-- The four classes of checks and the effects of a command frame (R169). -/
def answerFrame (f : Frame) (s : State) : Answer :=
  match parseRequest f.code f.payload with
  | .ok r => owner r f.tag s
  | .error status => refuse s status

/-! ### Addressing (R156, R157) -/

/-- Whether a unit byte is that of a broadcast frame (R156). -/
def isBroadcast (unitByte : Byte) : Bool :=
  decide (unitValue unitByte = 15)

/-- Whether a unit value addresses a part with the given strap address (R156). -/
def addresses (address : BitVec 4) (unitByte : Byte) : Bool :=
  isBroadcast unitByte || decide (address = 15#4) || decide (unitValue unitByte = address.toNat)

/-- Whether a code is permitted as a broadcast: GO, STOP, HOLD, RESUME and RECOVER (R157). -/
def broadcastPermitted (code : Byte) : Bool :=
  decide (code = (Request.go 0#8).code ∨ code = (Request.stop 0#8 0#8 0#8).code ∨ code = (Request.hold 0#8).code
    ∨ code = (Request.resume 0#8).code ∨ code = Request.recover.code)

/-- The unit byte of the part's replies: its strap address with the reply flag set (R156). -/
def replyUnitByte (address : BitVec 4) : Byte :=
  byteOf (address.toNat * 16 + 8)

/-! ### Replies and the cache (R160 to R163, R167) -/

/-- A reply frame on the line (R160, R167). -/
def replyBytes (address : BitVec 4) (f : Frame) (payload : List Byte) : List Byte :=
  wireBytes (replyUnitByte address) f.tag f.code payload

/-- The transmitter begins a reply, with the reset that its end brings, if any (R160). -/
def State.send (s : State) (bytes : List Byte) (reset : Option Scope) : State :=
  { s with link := { s.link with sending := some ⟨bytes, reset, 0⟩ } }

/-- The reply cache takes a new entry (R162). -/
def State.cacheReply (s : State) (f : Frame) (bytes : List Byte) : State :=
  { s with link := { s.link with cache := some ⟨f.tag, f.crc, bytes⟩ } }

/-- A formed reply is written into the cache and sent (R159, R162). -/
def State.reply (s : State) (f : Frame) (payload : List Byte) (reset : Option Scope) : State :=
  (s.cacheReply f (replyBytes s.link.address f payload)).send (replyBytes s.link.address f payload) reset

/-- The cached reply for a frame: the tag is not 0 and the tag and the CRC are those of the cache entry (R163). -/
def HostLink.cachedReply (l : HostLink) (f : Frame) : Option (List Byte) :=
  match l.cache with
  | some x => if f.tag ≠ 0x00#8 ∧ x.tag = f.tag ∧ x.crc = f.crc then some x.reply else none
  | none => none

/-- The answer of a command, replied and cached (R159). -/
def State.answer (s : State) (f : Frame) : State :=
  (answerFrame f s).state.reply f (answerFrame f s).payload (answerFrame f s).reset

/-- The execution of a frame (R159): a broadcast is executed without a reply if its code is permitted (R157), an addressed
command is answered from the cache or executed and answered. -/
def State.execute (s : State) (f : Frame) : State :=
  if isBroadcast f.unitByte then
    if broadcastPermitted f.code then (answerFrame f s).state else s
  else
    match s.link.cachedReply f with
    | some bytes => s.send bytes none
    | none => s.answer f

/-! ### Dispatch and the pending buffer (R158) -/

/-- A link error counter after one more cause: it stays at 65535 (R155). -/
def countUp (n : Half) : Half :=
  if n = 0xFFFF#16 then n else n + 1#16

/-- The state with the link error counters changed. -/
def State.countError (s : State) (f : Counters → Counters) : State :=
  { s with link := { s.link with counters := f s.link.counters } }

/-- A frame handed on by the receiver: executed at once while the transmitter is QUIET, otherwise buffered, or dropped as an
overrun when the buffer is full (R158). -/
def State.accept (s : State) (f : Frame) : State :=
  match s.link.sending with
  | none => s.execute f
  | some _ =>
    match s.link.buffer with
    | none => { s with link := { s.link with buffer := some f } }
    | some _ => s.countError fun x => { x with overrun := countUp x.overrun }

/-- A valid frame's reply flag and address are looked at (R153, steps 2 and 3): whether it is a command for this part. -/
def State.isForUs (s : State) (unitByte : Byte) : Bool :=
  !replyFlag unitByte && addresses s.link.address unitByte

/-- The lease renewed by a frame (R141). -/
def State.renewLease (s : State) : State :=
  { s with lease := s.lease.renewed }

/-- A frame whose last CRC byte has arrived is decided (R153). -/
def State.decideFrame (s : State) (f : Frame) : State :=
  if !crcPasses f then s.countError fun x => { x with check := countUp x.check }
  else if s.isForUs f.unitByte then s.renewLease.accept f
  else s

/-- A command handed to the dispatcher: it is taken if its unit byte is that of a command for this part (R156, R158). -/
def State.command (s : State) (v : Via) (r : Request) : State :=
  if s.isForUs v.unitByte then s.accept (commandFrame v r) else s

/-! ### The receiver (R151, R152) -/

/-- The receiver in a state, with the gap timed from this moment unless it is in HUNT (R152). -/
def State.receive (s : State) (x : Receiver) : State :=
  { s with link := { s.link with receiver := x, gap := if x = .hunt then none else some 0 } }

/-- The frame in reception is aborted and a counter goes up (R152). -/
def State.abortFrame (s : State) (f : Counters → Counters) : State :=
  (s.receive .hunt).countError f

/-- The receiver takes a good byte (R151). -/
def State.receiveByte (s : State) (b : Byte) : State :=
  match s.link.receiver with
  | .hunt => if b = startByte then s.receive (.header []) else s
  | .header got =>
    match got with
    | [unitByte, tag, code] =>
      if 48 < b.toNat then s.abortFrame fun x => { x with oversize := countUp x.oversize }
      else if b = 0x00#8 then s.receive (.check unitByte tag code [] none)
      else s.receive (.payload unitByte tag code b.toNat [])
    | _ => s.receive (.header (got ++ [b]))
  | .payload unitByte tag code length got =>
    if got.length + 1 < length then s.receive (.payload unitByte tag code length (got ++ [b]))
    else s.receive (.check unitByte tag code (got ++ [b]) none)
  | .check unitByte tag code payload none => s.receive (.check unitByte tag code payload (some b))
  | .check unitByte tag code payload (some high) =>
    (s.receive .hunt).decideFrame ⟨unitByte, tag, code, payload, joinHalf high b⟩

/-- The receiver takes a character with a low stop bit: it aborts a frame in reception and is discarded in HUNT (R152). -/
def State.receiveBad (s : State) : State :=
  match s.link.receiver with
  | .hunt => s
  | _ => s.abortFrame fun x => { x with framing := countUp x.framing }

/-- The line rate in bit/s (R149). -/
def lineRate (rate : BitVec 2) : Nat :=
  match rate.toNat with
  | 0 => 19200
  | 1 => 57600
  | 2 => 115200
  | _ => 460800

/-- Reference clocks in a second. -/
def clocksPerSecond : Nat :=
  1000000 * Config.clocksPerMicro

/-- Whether a number of character times, of ten bits each, has gone by in a number of reference clocks (R149). DESIGN CHOICE
(log 10): a moment between two reference clocks is taken at the later one. -/
def charsElapsed (rate : BitVec 2) (chars clocks : Nat) : Bool :=
  decide (chars * 10 * clocksPerSecond ≤ clocks * lineRate rate)

/-- Whether the inter-byte gap has reached its limit of 3 character times (R152, R154). -/
def HostLink.gapDue (l : HostLink) : Bool :=
  match l.gap with
  | some t => charsElapsed l.rate 3 t
  | none => false

/-! ### The end of a reply (R160) -/

/-- Whether the reply in progress has been sent to its end (R160). -/
def HostLink.replyDue (l : HostLink) : Bool :=
  match l.sending with
  | some x => charsElapsed l.rate x.bytes.length x.elapsed
  | none => false

/-- HTX is released and the transmitter is QUIET (R160, step 1). -/
def State.quiet (s : State) : State :=
  { s with link := { s.link with sending := none } }

/-- The reset of an executed RESET takes effect (R160, step 2). -/
def State.takeReset (s : State) (sense : BitVec 8) : Option Scope → State
  | none => s
  | some .outputs => s.resetOutputs.settle
  | some .all => s.resetAll sense

/-- The buffered frame, if there is one, is taken out of the buffer and executed (R160, step 3). -/
def State.executeBuffered (s : State) : State :=
  match s.link.buffer with
  | none => s
  | some f => State.execute { s with link := { s.link with buffer := none } } f

/-- A reply ends (R160). -/
def State.endReply (s : State) (sense : BitVec 8) : State :=
  match s.link.sending with
  | none => s
  | some x => (s.quiet.takeReset sense x.reset).executeBuffered

end Sys2Proof.Machine
end

