-- ==== Sys2Proof/Machine/Clock.lean ====
section
/-! DEFINITION. One reference clock of 125 ns, which passes when no command or event is waiting (log 6): every timer of the part
counts, and the events that fall due at the new moment are put on the queue. -/

namespace Sys2Proof.Machine

/-- An active job's step clock counts down while it runs (R51, R56). -/
def Active.tick (a : Active) : Active :=
  if a.clock = .running then { a with remaining := a.remaining - 1 } else a

/-- The armed head after a reference clock: its window counts down while the channel is ARMED and is frozen while it is HELD
(R35, R39), and it is no longer fresh. -/
def ArmedHead.tick (running : Bool) (h : ArmedHead) : ArmedHead :=
  { h with window := if running then h.window.map (· - 1) else h.window, fresh := false }

/-- A channel's timers after a reference clock (R35, R51, R85). -/
def Channel.tick (ch : Channel) : Channel :=
  { ch with
    active := ch.active.map Active.tick
    armed := ch.armed.map (ArmedHead.tick (decide (ch.state = .armed)))
    waitTimer := ch.waitTimer.map (· - 1) }

/-- A generator's cycle phase after a reference clock (R80). -/
def Gen.tick : Gen → Gen
  | .free => .free
  | .running k phase high => .running k (phase + 1) high
  | .draining k phase high => .draining k (phase + 1) high

/-- The part time after a reference clock: it goes up by one every microsecond and wraps (R123). -/
def ReportUnit.tick (u : ReportUnit) : ReportUnit :=
  if u.subMicro + 1 < Config.clocksPerMicro then { u with subMicro := u.subMicro + 1 }
  else { u with subMicro := 0, partTime := u.partTime + 1#32 }

/-- The lease's remaining time after a reference clock (R139). -/
def LeaseState.tick : LeaseState → LeaseState
  | .running t => .running (t - 1)
  | x => x

/-- The load timer after a reference clock (R4). -/
def Load.tick (l : Load) : Load :=
  { l with remaining := l.remaining - 1 }

/-- The reply in progress after a reference clock (R160). -/
def Sending.tick (x : Sending) : Sending :=
  { x with elapsed := x.elapsed + 1 }

/-- Every timer of the part one reference clock later. -/
def State.advance (s : State) : State :=
  { s with
    ptab := { s.ptab with load := s.ptab.load.map Load.tick }
    chans := Vector.ofFn fun c => (s.chan c).tick
    carb := { s.carb with gens := Vector.ofFn fun g => (s.gen g).tick }
    sense := { s.sense with grid := s.sense.grid + 1 }
    rpt := s.rpt.tick
    lease := { s.lease with state := s.lease.state.tick }
    link := { s.link with gap := s.link.gap.map (· + 1), sending := s.link.sending.map Sending.tick }
    clock := s.clock + 1 }

/-- One event, if it is due. -/
def eventIf (due : Bool) (i : Instr) : List Instr :=
  if due then [i] else []

/-- The events of a channel's timers that are due. -/
def State.channelEvents (s : State) (c : Chan) : List Instr :=
  eventIf (s.chan c).windowExpired (.triggerWindowExpiry c)
    ++ eventIf (s.chan c).stepExpired (.stepEnd c)
    ++ eventIf (s.chan c).waitExpired (.carrierWaitExpiry c)
    ++ eventIf (s.chan c).readbackDue (.readbackSample c (s.outLevels.getLsbD c.val))

/-- The events of a generator's cycle that are due. -/
def State.genEvents (s : State) (g : GenId) : List Instr :=
  eventIf (s.highDue g) (.highPortionEnd g) ++ eventIf (s.cycleDue g) (.cycleEnd g)

/-- Every event that is due at this moment; the pin levels it reads are free values (log 2, 3). -/
def State.dueEvents (s : State) : List Instr :=
  eventIf s.loadExpired .loadTimerExpiry
    ++ (List.finRange 8).flatMap s.channelEvents
    ++ (List.finRange 3).flatMap s.genEvents
    ++ eventIf s.sense.sampleDue (.senseSample (Config.sensePins s.clock))
    ++ eventIf s.rpt.ageDue .holdAgeReached
    ++ eventIf s.lease.due .leaseExpiry
    ++ eventIf s.link.gapDue .gapAbort
    ++ eventIf s.link.replyDue (.replyEnd (Config.sensePins s.clock))

/-- One reference clock: time goes on and the events that fall due wait in a free order (log 1, 6). DESIGN CHOICE (log 29): a
window that a HOLD has frozen at 0 raises its expiry at the first reference clock after the RESUME. -/
def State.tick (s : State) : State :=
  let t := s.advance.ordered s.advance.dueEvents
  { t.2 with pending := t.1 }

end Sys2Proof.Machine
end

