-- ==== Sys2Proof/Machine/Commands.lean ====
section
/-! DEFINITION. The meanings of the 33 command rows: each is the command, in a frame with a correct CRC, handed by the receiver to
the dispatcher (R158). With the transmitter QUIET it is executed at once by the rule that owns it, and its reply is formed, cached
and started (R159); while a reply is being sent it waits in the pending buffer. The arrival of the frame's bytes, with the renewal
of the lease (R141), is the row FRAME_RECEIVED. -/

namespace Sys2Proof.Machine

/-- What every command row answers: the command dispatched, and the end of the event. -/
def runCommand (v : Via) (r : Request) (s : State) : Host.Outcome State Fault Refusal :=
  .next (s.command v r).settle

/-- IDENT (R177). -/
def execIdent (v : Via) (s : State) : Host.Outcome State Fault Refusal :=
  runCommand v .ident s

/-- STATUS (R178). -/
def execStatus (v : Via) (clear : Byte) (s : State) : Host.Outcome State Fault Refusal :=
  runCommand v (.status clear) s

/-- RESET (R179). -/
def execReset (v : Via) (scope : Byte) (s : State) : Host.Outcome State Fault Refusal :=
  runCommand v (.reset scope) s

/-- LEASE (R140). -/
def execLease (v : Via) (period : Half) (s : State) : Host.Outcome State Fault Refusal :=
  runCommand v (.lease period) s

/-- RECOVER (R145). -/
def execRecover (v : Via) (s : State) : Host.Outcome State Fault Refusal :=
  runCommand v .recover s

/-- TIME (R124). -/
def execTime (v : Via) (s : State) : Host.Outcome State Fault Refusal :=
  runCommand v .time s

/-- ATTN_CONFIG (R136). -/
def execAttnConfig (v : Via) (enable threshold holdTime : Byte) (s : State) : Host.Outcome State Fault Refusal :=
  runCommand v (.attnConfig enable threshold holdTime) s

/-- FETCH (R130). -/
def execFetch (v : Via) (k : Byte) (s : State) : Host.Outcome State Fault Refusal :=
  runCommand v (.fetch k) s

/-- ACK (R132). -/
def execAck (v : Via) (batchTag : Byte) (s : State) : Host.Outcome State Fault Refusal :=
  runCommand v (.ack batchTag) s

/-- PAT_OPEN (R10, R11). -/
def execPatOpen (v : Via) (p : OpenFields) (s : State) : Host.Outcome State Fault Refusal :=
  runCommand v (.patOpen p) s

/-- PAT_STEPS (R12, R13). -/
def execPatSteps (v : Via) (id first : Byte) (records : List RawStep) (s : State) : Host.Outcome State Fault Refusal :=
  runCommand v (.patSteps id first records) s

/-- PAT_SEAL (R14). -/
def execPatSeal (v : Via) (id : Byte) (s : State) : Host.Outcome State Fault Refusal :=
  runCommand v (.patSeal id) s

/-- PAT_DISCARD (R15). -/
def execPatDiscard (v : Via) (id : Byte) (s : State) : Host.Outcome State Fault Refusal :=
  runCommand v (.patDiscard id) s

/-- PAT_DELETE (R18). -/
def execPatDelete (v : Via) (id : Byte) (s : State) : Host.Outcome State Fault Refusal :=
  runCommand v (.patDelete id) s

/-- PAT_INFO (R19). -/
def execPatInfo (v : Via) (id : Byte) (s : State) : Host.Outcome State Fault Refusal :=
  runCommand v (.patInfo id) s

/-- PAT_READ (R20). -/
def execPatRead (v : Via) (id first count : Byte) (s : State) : Host.Outcome State Fault Refusal :=
  runCommand v (.patRead id first count) s

/-- CAR_SET (R77). -/
def execCarSet (v : Via) (cls : Byte) (period high : Half) (s : State) : Host.Outcome State Fault Refusal :=
  runCommand v (.carSet cls period high) s

/-- CAR_CLEAR (R78). -/
def execCarClear (v : Via) (cls : Byte) (s : State) : Host.Outcome State Fault Refusal :=
  runCommand v (.carClear cls) s

/-- CAR_STATUS (R95). -/
def execCarStatus (v : Via) (part : Byte) (s : State) : Host.Outcome State Fault Refusal :=
  runCommand v (.carStatus part) s

/-- CH_CONFIG (R99). -/
def execChConfig (v : Via) (p : ConfigFields) (s : State) : Host.Outcome State Fault Refusal :=
  runCommand v (.chConfig p) s

/-- CH_ENABLE (R102). -/
def execChEnable (v : Via) (mask : Byte) (s : State) : Host.Outcome State Fault Refusal :=
  runCommand v (.chEnable mask) s

/-- CH_DISABLE without force (R103). -/
def execChDisable (v : Via) (mask force : Byte) (s : State) : Host.Outcome State Fault Refusal :=
  runCommand v (.chDisable mask force) s

/-- CH_DISABLE with force (R104). -/
def execChDisableForce (v : Via) (mask : Byte) (s : State) : Host.Outcome State Fault Refusal :=
  runCommand v (.chDisable mask 0x01#8) s

/-- PLAY (R27 to R30). -/
def execPlay (v : Via) (p : PlayFields) (s : State) : Host.Outcome State Fault Refusal :=
  runCommand v (.play p) s

/-- CANCEL (R41). -/
def execCancel (v : Via) (channel : Byte) (job : Half) (s : State) : Host.Outcome State Fault Refusal :=
  runCommand v (.cancel channel job) s

/-- STOP (R42, R62). -/
def execStop (v : Via) (mask boundary flush : Byte) (s : State) : Host.Outcome State Fault Refusal :=
  runCommand v (.stop mask boundary flush) s

/-- HOLD (R70). -/
def execHold (v : Via) (mask : Byte) (s : State) : Host.Outcome State Fault Refusal :=
  runCommand v (.hold mask) s

/-- RESUME (R75). -/
def execResume (v : Via) (mask : Byte) (s : State) : Host.Outcome State Fault Refusal :=
  runCommand v (.resume mask) s

/-- GO (R34). -/
def execGo (v : Via) (mask : Byte) (s : State) : Host.Outcome State Fault Refusal :=
  runCommand v (.go mask) s

/-- CLEAR_FAULT (R108). -/
def execClearFault (v : Via) (mask : Byte) (s : State) : Host.Outcome State Fault Refusal :=
  runCommand v (.clearFault mask) s

/-- CH_STATUS (R46). -/
def execChStatus (v : Via) (channel : Byte) (s : State) : Host.Outcome State Fault Refusal :=
  runCommand v (.chStatus channel) s

/-- SN_CONFIG (R117). -/
def execSnConfig (v : Via) (line selection filter : Byte) (s : State) : Host.Outcome State Fault Refusal :=
  runCommand v (.snConfig line selection filter) s

/-- LINES (R109). -/
def execLines (v : Via) (s : State) : Host.Outcome State Fault Refusal :=
  runCommand v .lines s

end Sys2Proof.Machine
end

