-- ==== Sys2Proof/Machine/Events.lean ====
section
/-! DEFINITION. The meanings of the event rows. An event that the part's timers bring about has its effect when its timer stands
where the rule says, and no effect at any other moment: it has not occurred then (log 7). -/

namespace Sys2Proof.Machine

/-- What an event row answers: its effect and the end of the event if it is due, otherwise the state as it was. -/
def runEvent (due : Bool) (effect : State → State) (s : State) : Host.Outcome State Fault Refusal :=
  .next (if due then (effect s).settle else s)

/-- HARDWARE_RESET (R165): every block takes its hardware reset values, the straps are sampled and the sense unit takes the first
sample of its grid. -/
def execHardwareReset (address : BitVec 4) (rate : BitVec 2) (sense : BitVec 8) (s : State) :
    Host.Outcome State Fault Refusal :=
  .next (s.hardReset address rate sense)

/-- CHARACTER_RECEIVED (R151, R152). -/
def execCharacterReceived (b : Byte) (stopHigh : Bool) (s : State) : Host.Outcome State Fault Refusal :=
  runEvent true (fun t => if stopHigh then t.receiveByte b else t.receiveBad) s

/-- GAP_ABORT (R152, R154). -/
def execGapAbort (s : State) : Host.Outcome State Fault Refusal :=
  runEvent s.link.gapDue (fun t => t.abortFrame fun x => { x with gap := countUp x.gap }) s

/-- FRAME_RECEIVED (R153): the receiver returns to HUNT and the frame is decided. -/
def execFrameReceived (f : Frame) (s : State) : Host.Outcome State Fault Refusal :=
  runEvent true (fun t => (t.receive .hunt).decideFrame f) s

/-- REPLY_END (R160). -/
def execReplyEnd (sense : BitVec 8) (s : State) : Host.Outcome State Fault Refusal :=
  runEvent s.link.replyDue (fun t => t.endReply sense) s

/-- LOAD_TIMER_EXPIRY (R16). -/
def execLoadTimerExpiry (s : State) : Host.Outcome State Fault Refusal :=
  runEvent s.loadExpired State.abandonLoad s

/-- TRIGGER_WINDOW_EXPIRY (R36). -/
def execTriggerWindowExpiry (c : Chan) (s : State) : Host.Outcome State Fault Refusal :=
  runEvent (s.chan c).windowExpired (fun t => t.expireWindow c) s

/-- STEP_END (R51, R52). -/
def execStepEnd (c : Chan) (s : State) : Host.Outcome State Fault Refusal :=
  runEvent (s.chan c).stepExpired (fun t => t.stepEnd c) s

/-- CYCLE_END (R80). -/
def execCycleEnd (g : GenId) (s : State) : Host.Outcome State Fault Refusal :=
  runEvent (s.cycleDue g) (fun t => t.cycleEnd g) s

/-- CARRIER_WAIT_EXPIRY (R85). -/
def execCarrierWaitExpiry (c : Chan) (s : State) : Host.Outcome State Fault Refusal :=
  runEvent (s.chan c).waitExpired (fun t => t.finishJob c .carrierTimeout) s

/-- READBACK_SAMPLE (R105, R107). -/
def execReadbackSample (c : Chan) (observed : Bool) (s : State) : Host.Outcome State Fault Refusal :=
  runEvent (s.chan c).readbackDue (fun t => t.readback c observed) s

/-- SENSE_SAMPLE (R112, R113). -/
def execSenseSample (levels : BitVec 8) (s : State) : Host.Outcome State Fault Refusal :=
  runEvent s.sense.sampleDue (fun t => t.sampleLines levels) s

/-- HOLD_AGE_REACHED (R135). -/
def execHoldAgeReached (s : State) : Host.Outcome State Fault Refusal :=
  runEvent s.rpt.ageDue (fun t => { t with rpt := { t.rpt with ageReached := true } }) s

/-- LEASE_EXPIRY (R142). -/
def execLeaseExpiry (s : State) : Host.Outcome State Fault Refusal :=
  runEvent s.lease.due State.expireLease s

/-- HIGH_PORTION_END (R100). -/
def execHighPortionEnd (g : GenId) (s : State) : Host.Outcome State Fault Refusal :=
  runEvent (s.highDue g) (fun t => t.setGen g (t.gen g).endHigh) s

/-- START_BIT (R152, R154). -/
def execStartBit (s : State) : Host.Outcome State Fault Refusal :=
  runEvent true (fun t => { t with link := { t.link with gap := none } }) s

end Sys2Proof.Machine
end

