-- ==== Sys2Proof/Machine/Dispatch.lean ====
section
/-! DEFINITION. The meaning of every row of spec/opcode_table.json, one arm per constructor of `Instr`. -/

namespace Sys2Proof.Machine

def exec (i : Instr) (s : State) : Host.Outcome State Fault Refusal :=
  match i with
  | .ident v => Sys2Proof.Machine.execIdent v s
  | .status v clear => Sys2Proof.Machine.execStatus v clear s
  | .reset v scope => Sys2Proof.Machine.execReset v scope s
  | .lease v period => Sys2Proof.Machine.execLease v period s
  | .recover v => Sys2Proof.Machine.execRecover v s
  | .time v => Sys2Proof.Machine.execTime v s
  | .attnConfig v enable threshold holdTime => Sys2Proof.Machine.execAttnConfig v enable threshold holdTime s
  | .fetch v k => Sys2Proof.Machine.execFetch v k s
  | .ack v batchTag => Sys2Proof.Machine.execAck v batchTag s
  | .patOpen v p => Sys2Proof.Machine.execPatOpen v p s
  | .patSteps v id first records => Sys2Proof.Machine.execPatSteps v id first records s
  | .patSeal v id => Sys2Proof.Machine.execPatSeal v id s
  | .patDiscard v id => Sys2Proof.Machine.execPatDiscard v id s
  | .patDelete v id => Sys2Proof.Machine.execPatDelete v id s
  | .patInfo v id => Sys2Proof.Machine.execPatInfo v id s
  | .patRead v id first count => Sys2Proof.Machine.execPatRead v id first count s
  | .carSet v cls period high => Sys2Proof.Machine.execCarSet v cls period high s
  | .carClear v cls => Sys2Proof.Machine.execCarClear v cls s
  | .carStatus v part => Sys2Proof.Machine.execCarStatus v part s
  | .chConfig v p => Sys2Proof.Machine.execChConfig v p s
  | .chEnable v mask => Sys2Proof.Machine.execChEnable v mask s
  | .chDisable v mask force => Sys2Proof.Machine.execChDisable v mask force s
  | .chDisableForce v mask => Sys2Proof.Machine.execChDisableForce v mask s
  | .play v p => Sys2Proof.Machine.execPlay v p s
  | .cancel v channel job => Sys2Proof.Machine.execCancel v channel job s
  | .stop v mask boundary flush => Sys2Proof.Machine.execStop v mask boundary flush s
  | .hold v mask => Sys2Proof.Machine.execHold v mask s
  | .resume v mask => Sys2Proof.Machine.execResume v mask s
  | .go v mask => Sys2Proof.Machine.execGo v mask s
  | .clearFault v mask => Sys2Proof.Machine.execClearFault v mask s
  | .chStatus v channel => Sys2Proof.Machine.execChStatus v channel s
  | .snConfig v line selection filter => Sys2Proof.Machine.execSnConfig v line selection filter s
  | .lines v => Sys2Proof.Machine.execLines v s
  | .hardwareReset address rate sense => Sys2Proof.Machine.execHardwareReset address rate sense s
  | .characterReceived b stopHigh => Sys2Proof.Machine.execCharacterReceived b stopHigh s
  | .gapAbort => Sys2Proof.Machine.execGapAbort s
  | .frameReceived f => Sys2Proof.Machine.execFrameReceived f s
  | .replyEnd sense => Sys2Proof.Machine.execReplyEnd sense s
  | .loadTimerExpiry => Sys2Proof.Machine.execLoadTimerExpiry s
  | .triggerWindowExpiry c => Sys2Proof.Machine.execTriggerWindowExpiry c s
  | .stepEnd c => Sys2Proof.Machine.execStepEnd c s
  | .cycleEnd g => Sys2Proof.Machine.execCycleEnd g s
  | .carrierWaitExpiry c => Sys2Proof.Machine.execCarrierWaitExpiry c s
  | .readbackSample c observed => Sys2Proof.Machine.execReadbackSample c observed s
  | .senseSample levels => Sys2Proof.Machine.execSenseSample levels s
  | .holdAgeReached => Sys2Proof.Machine.execHoldAgeReached s
  | .leaseExpiry => Sys2Proof.Machine.execLeaseExpiry s
  | .highPortionEnd g => Sys2Proof.Machine.execHighPortionEnd g s
  | .startBit => Sys2Proof.Machine.execStartBit s

end Sys2Proof.Machine
end

