-- ==== Sys2Proof/Safety.lean ====
section
/-! DEFINITION. The terms in which the statements speak: the invariants that the rules lay down, a command that is executed at
once, what its reply is, and what a command or event leaves unchanged. -/

namespace Sys2Proof.Machine

/-! ### Invariants -/

/-- Whether no two markers stand side by side in a report queue. -/
def markersApart : List Record → Bool
  | a :: b :: rest => !(a.isMarker && b.isMarker) && markersApart (b :: rest)
  | _ => true

/-- The report queue and its batch are as R126 and R129 say. -/
structure ReportUnit.Ok (u : ReportUnit) : Prop where
  atMost : u.queue.length ≤ 32
  ordinary : (u.queue.filter fun r => !r.isMarker).length ≤ 31
  apart : markersApart u.queue = true
  full : u.queue.length = 32 → (u.queue.getLast?.any Record.isMarker) = true
  batch : ∀ b, u.batch = some b → 1 ≤ b.size ∧ b.size ≤ 4 ∧ b.size ≤ u.queue.length

/-- A pattern entry holds what its state says (R1). -/
def Entry.Ok : Entry → Prop
  | .free => True
  | .loading h steps => 1 ≤ h.count ∧ h.count ≤ 64 ∧ h.loopStart < h.count ∧ steps.length ≤ h.count
  | .ready h steps _ => 1 ≤ h.count ∧ h.count ≤ 64 ∧ h.loopStart < h.count ∧ steps.length = h.count

/-- The pattern table keeps the bounds of the step pool (R3) and of the load slot (R4), and each entry is as R1 says. -/
structure PatternTable.Ok (t : PatternTable) : Prop where
  entries : ∀ p : PatId, (t.entries[p]).Ok
  pool : t.reservedSteps ≤ Config.poolSteps
  slot : ∀ p : PatId, (t.load.map Load.id = some p) ↔ ∃ h steps, t.entries[p] = .loading h steps

/-- Every defined carrier class has a period of 16 to 65535 clocks and a high time of 1 to P − 1 (R76). -/
def State.ClassesOk (s : State) : Prop :=
  ∀ k x, s.carrierClass k = some x → 16 ≤ x.period ∧ x.period ≤ 65535 ∧ 1 ≤ x.high ∧ x.high < x.period

/-- No two generators hold one class (R79), no channel waits for a class that a generator holds (R84), and none waits while a
generator is FREE (R90). -/
structure State.CarriersOk (s : State) : Prop where
  distinct : ∀ g h k, (s.gen g).cls = some k → (s.gen h).cls = some k → g = h
  waiting : ∀ w ∈ s.carb.waitList, ∀ g, (s.gen g).cls ≠ some w.cls
  served : s.carb.waitList ≠ [] → ∀ g, s.gen g ≠ .free

/-- A pending queue holds at most 4 jobs, by priority from the highest (R26). -/
def Channel.QueueOk (ch : Channel) : Prop :=
  ch.queue.length ≤ 4 ∧ ch.queue.Pairwise fun a b => b.priority ≤ a.priority

/-- What a channel holds according to its state (R22): the active job, the queue, the armed head with its start condition (R39), and
in HELD the hold context. An attachment to a generator is held while PLAYING alone (R86). -/
def Channel.Ok (ch : Channel) : Prop :=
  match ch.state with
  | .off | .idle | .safe | .fault => ch.active = none ∧ ch.queue = []
  | .armed => ch.active = none ∧ ∃ j rest, ch.queue = j :: rest ∧ j.start ≠ .now ∧
      ch.armed.map ArmedHead.number = some j.number
  | .playing => ch.active.isSome
  | .carrierWait => ch.active.isSome ∧ ch.attachment = none
  | .held => ((ch.hold.bind HoldContext.resume).isSome ↔ ch.active.isSome) ∧ ch.attachment = none

/-- Every channel holds what its state says, and a hold context exactly in HELD (R22). -/
def State.ChannelsOk (s : State) : Prop :=
  ∀ c, (s.chan c).Ok ∧ ((s.chan c).hold.isSome ↔ (s.chan c).state = .held)

/-- Every place on the wait list belongs to a channel in CARRIER_WAIT, and no channel has two (R84). -/
structure State.WaitersOk (s : State) : Prop where
  waiting : ∀ w ∈ s.carb.waitList, (s.chan w.chan).state = .carrierWait
  once : (s.carb.waitList.map Waiter.chan).Nodup

/-- A FREE and a DRAINING generator has no users and a RUNNING one has at least one (R79), and every channel in CARRIER_WAIT has a
place on the wait list (R84). -/
structure State.UsersOk (s : State) : Prop where
  idle : ∀ g, (s.gen g).code ≠ 0x01#8 → s.users g = []
  busy : ∀ g, (s.gen g).code = 0x01#8 → s.users g ≠ []
  places : ∀ c, (s.chan c).state = .carrierWait → ∃ w ∈ s.carb.waitList, w.chan = c

/-- A channel is in SAFE only while the lease is EXPIRED (R144), and then every channel with safe-on-lease set is in OFF, SAFE or
FAULT (R142). -/
structure State.LeaseOk (s : State) : Prop where
  safe : ∀ c, (s.chan c).state = .safe → s.lease.state = .expired
  flagged : s.lease.state = .expired → ∀ c, (s.chan c).config.safeOnLease = true →
    (s.chan c).state = .off ∨ (s.chan c).state = .safe ∨ (s.chan c).state = .fault

/-- The numbers of all the jobs that exist, active and queued. -/
def State.jobNumbers (s : State) : List Half :=
  (List.finRange 8).flatMap fun c => (s.chan c).jobNumbers

/-- Job numbers (R25): the counter is not 0, and no two jobs have one number. -/
structure State.NumbersOk (s : State) : Prop where
  counter : s.nextJob ≠ 0#16
  nonzero : 0#16 ∉ s.jobNumbers
  unique : s.jobNumbers.Nodup

/-- The jobs of a channel that name a pattern. -/
def Channel.naming (ch : Channel) (p : PatId) : Nat :=
  (if ch.active.map (fun a => a.job.pattern) = some p then 1 else 0) + ch.queue.countP fun j => j.pattern = p

/-- The jobs that name a pattern (R8). -/
def State.naming (s : State) (p : PatId) : Nat :=
  ((List.finRange 8).map fun c => (s.chan c).naming p).sum

/-- The reference count of an entry, 0 where it holds none (R1). -/
def Entry.refs : Entry → Nat
  | .ready _ _ refs => refs
  | _ => 0

/-- Every entry's reference count is the number of the jobs that name it (R8). -/
def State.RefsOk (s : State) : Prop :=
  ∀ p, (s.entry p).refs = s.naming p

/-- What every event leaves: its reports are with RPT, every pin is driven as R100 and R101 say, and ATTN_N is decided as R134
says. -/
structure State.Settled (s : State) : Prop where
  outbox : s.outbox = []
  outs : ∀ c : Chan, s.outs[c] = s.drivenLevel c
  attention : s.rpt.attention = s.rpt.pulls

/-! ### What the bytes of a payload spell -/

/-- The when byte of a STOP gives this strength (R62, R171). -/
def StopWhen.Spelled (w : StopWhen) (boundary : Byte) : Prop :=
  boundary = match w with | .passEnd => 0x01#8 | .stepEnd => 0x02#8 | .now => 0x03#8

/-- The payload lengths that the catalogue permits for a code; none for a code outside it (R169, section 10.4). -/
def catalogueLengths (code : Byte) : List Nat :=
  match code.toNat with
  | 0x01 | 0x09 | 0x10 | 0x51 => [0]
  | 0x02 | 0x03 | 0x12 | 0x13 | 0x22 | 0x23 | 0x24 | 0x25 | 0x31 | 0x32 | 0x41 | 0x46 | 0x47 | 0x48 | 0x49 | 0x4A => [1]
  | 0x08 | 0x42 => [2]
  | 0x11 | 0x26 | 0x44 | 0x45 | 0x50 => [3]
  | 0x30 => [5]
  | 0x20 => [7]
  | 0x40 => [9]
  | 0x43 => [11]
  | 0x21 => [6, 10, 14, 18, 22, 26, 30, 34]
  | _ => []

/-! ### A command that is executed at once -/

/-- A command is addressed to this part alone, finds the transmitter QUIET and is no duplicate of the cached command, so that it is
executed and answered at once (R156, R158, R159, R163). -/
structure State.Executes (s : State) (v : Via) (r : Request) : Prop where
  quiet : s.link.sending = none
  forUs : s.isForUs v.unitByte = true
  single : isBroadcast v.unitByte = false
  fresh : s.link.cachedReply (commandFrame v r) = none

/-- A command is one that a frame can carry: a PAT_STEPS has 1 to 8 records (R12). -/
def Request.Fits : Request → Prop
  | .patSteps _ _ records => 1 ≤ records.length ∧ records.length ≤ 8
  | _ => True

/-- The host link that answers a command: it sends the reply with the given payload and has written it into the cache, and nothing
else of it has changed (R159, R160, R162, R167). -/
def HostLink.answering (l : HostLink) (v : Via) (r : Request) (payload : List Byte) (reset : Option Scope) : HostLink :=
  { l with
    sending := some ⟨wireBytes (replyUnitByte l.address) v.tag r.code payload, reset, 0⟩
    cache := some ⟨v.tag, crc16 (framedBytes v.unitByte v.tag r.code r.payload),
      wireBytes (replyUnitByte l.address) v.tag r.code payload⟩ }

/-! ### What is left unchanged -/

/-- The blocks of the state (section 0.2), the job-number counter, and the count of free orders drawn (log 1). -/
inductive Block where
  | patterns
  | channels
  | jobCounter
  | carriers
  | outputs
  | sense
  | reports
  | lease
  | link
  | choices
deriving DecidableEq, Repr

/-- A block holds in one state what it holds in another. -/
def Block.same : Block → State → State → Prop
  | .patterns, s, t => t.ptab = s.ptab
  | .channels, s, t => t.chans = s.chans
  | .jobCounter, s, t => t.nextJob = s.nextJob
  | .carriers, s, t => t.carb = s.carb
  | .outputs, s, t => t.outs = s.outs
  | .sense, s, t => t.sense = s.sense
  | .reports, s, t => t.rpt = s.rpt
  | .lease, s, t => t.lease = s.lease
  | .link, s, t => t.link = s.link
  | .choices, s, t => t.choices = s.choices

/-- Every block but those listed holds what it held; no time has passed and the waiting commands are the same. -/
def State.KeepsAllBut (s t : State) (changed : List Block) : Prop :=
  (∀ b, b ∉ changed → b.same s t) ∧ t.clock = s.clock ∧ t.pending = s.pending

/-- A command is answered OK with the given fields: LINK sends and caches the reply, every block but those listed is as it was, and
the event has come to its end. -/
structure State.Answered (s t : State) (v : Via) (r : Request) (fields : List Byte) (changed : List Block) : Prop where
  link : t.link = s.link.answering v r (statusOk :: fields) none
  kept : s.KeepsAllBut t (.link :: changed)
  settled : t.Settled

/-- A command is refused with a status and, for SEQUENCE, the loaded count: nothing but LINK has changed (R168, R170). -/
structure State.Refused (s t : State) (v : Via) (r : Request) (status : Status) (more : List Byte) : Prop where
  link : t.link = s.link.answering v r (status.code :: more) none
  kept : s.KeepsAllBut t [.link]

/-- The report unit once it has taken some reports, in this order, and decided ATTN_N (R126, R134). -/
def ReportUnit.taking (u : ReportUnit) (rs : List Report) : ReportUnit :=
  { rs.foldl ReportUnit.take u with attention := (rs.foldl ReportUnit.take u).pulls }

/-- A pattern entry whose reference count has gone down by a number of jobs (R8). -/
def Entry.less (jobs : Nat) : Entry → Entry
  | .ready h steps refs => .ready h steps (refs - jobs)
  | e => e

/-- The pattern table with fewer jobs naming its entries: the load slot, the headers and the steps are as they were, and the
reference count of each entry has gone down by the given number (R8). -/
def State.Releases (s t : State) (jobs : PatId → Nat) : Prop :=
  t.ptab.load = s.ptab.load ∧ ∀ p, t.entry p = (s.entry p).less (jobs p)

/-- Every channel but one is as it was. -/
def State.KeepsChannelsBut (s t : State) (c : Chan) : Prop :=
  ∀ d, d ≠ c → t.chan d = s.chan d

/-- A channel that a generator has been granted to: it is PLAYING with its gate open, its step clock runs and its wait timer has
stopped (R90). -/
def Channel.served (g : GenId) (ch : Channel) : Channel :=
  { ch with
    state := .playing
    waitTimer := none
    active := ch.active.map fun a => { a with attach := some ⟨g, .opened⟩, clock := .running } }

/-- Whether a RUNNING generator stands at a cycle boundary (R80, log 8): its phase is 0, or it has reached the period. -/
def State.AtCycleEnd (s : State) (g : GenId) : Prop :=
  ∃ k phase high, s.gen g = .running k phase high ∧ (phase = 0 ∨ ∀ x, s.carrierClass k = some x → x.period ≤ phase)

/-- Whether a generator loses its last user when the gates of the given channels close: one of them at least is attached to it, and no
other channel is. -/
def State.Deserted (s : State) (goes : Chan → Bool) (g : GenId) : Prop :=
  (∃ c ∈ s.users g, goes c = true) ∧ ∀ c ∈ s.users g, goes c = true

/-- The places on the wait list that the given channels leave standing. -/
def State.waitersLeft (s : State) (goes : Chan → Bool) : List Waiter :=
  s.carb.waitList.filter fun w => !goes w.chan

/-- What a forced close of the given channels' gates does to the generators, to the wait list and to the other channels (R88, R90, R91,
R93). A generator that keeps a user, or had none of theirs, goes on as it was; one that loses its last user between cycle boundaries is
DRAINING; one that loses it at a boundary is FREE when nobody else waits, and is otherwise granted to a waiter's class, which is the
oldest waiter's where it is the one generator that becomes FREE. Another channel changes by such a grant alone. -/
structure State.ForceClosed (s t : State) (goes : Chan → Bool) : Prop where
  classes : t.carb.classes = s.carb.classes
  kept : ∀ g, ¬s.Deserted goes g → t.gen g = s.gen g
  drains : ∀ g k phase high, s.Deserted goes g → s.gen g = .running k phase high → ¬s.AtCycleEnd g →
    t.gen g = .draining k phase high
  frees : ∀ g, s.Deserted goes g → s.AtCycleEnd g →
    (t.gen g = .free ∧ t.carb.waitList = []) ∨ ∃ w ∈ s.waitersLeft goes, t.gen g = .running w.cls 0 true
  idle : s.waitersLeft goes = [] → t.carb.waitList = [] ∧ ∀ g, s.Deserted goes g → s.AtCycleEnd g → t.gen g = .free
  waits : (∀ g, s.Deserted goes g → ¬s.AtCycleEnd g) → t.carb.waitList = s.waitersLeft goes
  grants : ∀ g w rest, s.Deserted goes g → s.AtCycleEnd g → (∀ g', g' ≠ g → s.Deserted goes g' → ¬s.AtCycleEnd g') →
    s.waitersLeft goes = w :: rest →
    t.gen g = .running w.cls 0 true ∧ t.carb.waitList = (w :: rest).filter (fun y => y.cls ≠ w.cls) ∧
      ∀ y ∈ w :: rest, y.cls = w.cls → (s.chan y.chan).state = .carrierWait → t.chan y.chan = (s.chan y.chan).served g
  others : ∀ c, goes c = false → t.chan c = s.chan c ∨
    ∃ g, ∃ w ∈ s.waitersLeft goes, s.Deserted goes g ∧ s.AtCycleEnd g ∧ w.chan = c ∧ t.gen g = .running w.cls 0 true ∧
      t.chan c = (s.chan c).served g

/-- What RPT takes of several channels' reports made in one event, and of some other reports (R128): all of them in some order, the
reports of each channel in the order in which it made them. -/
def ReportUnit.Merges (u v : ReportUnit) (made : Chan → List Report) (others : List Report) : Prop :=
  ∃ rs : List Report, v = u.taking rs ∧ rs.Perm ((List.finRange 8).flatMap made ++ others) ∧
    ∀ c, rs.filter (fun r => r.source = some c && decide (r.kind ≠ .sense)) = made c

/-- The reports of a channel that leaves with all its jobs: the ENDED report of its active job, then the DROPPED reports of its queue
from the head on (R40, R43, R61). -/
def State.leavingReports (s : State) (c : Chan) (outcome reason : Byte) : List Report :=
  (match (s.chan c).active with
    | some a => [⟨.ended, s.rpt.partTime, some c, a.job.number, byteOf a.job.pattern.val, outcome⟩]
    | none => [])
  ++ (s.chan c).queue.map fun j => ⟨.dropped, s.rpt.partTime, some c, j.number, byteOf j.pattern.val, reason⟩

/-- Where a queue has a NOW job at its head, the job's step 0 is a steady step of a READY pattern. -/
def State.SteadyHead (s : State) (queue : List Job) : Prop :=
  ∀ j rest, queue = j :: rest → j.start = .now →
    ∃ h x steps n, s.entry j.pattern = .ready h (x :: steps) n ∧ ∀ k, x.kind ≠ .carrier k

/-- A channel takes the head decision over a queue (R23), its record being `ch` and its reports of the event so far `made`. An empty
queue leaves it IDLE. A SENSE or GO head arms it: the window of the armed head that it held runs on, and another head's window starts
afresh. A NOW head whose step 0 is a steady one starts and enters that step, with its STARTED and MARK reports (R31, R49, R50). -/
structure State.TakesHead (s t : State) (c : Chan) (ch : Channel) (queue : List Job) (made : List Report) : Prop where
  empty : queue = [] → t.chan c = { ch with state := .idle, queue := [], armed := none } ∧ t.rpt = s.rpt.taking made
  armsAgain : ∀ j rest h, queue = j :: rest → j.start ≠ .now → ch.armed = some h → h.number = j.number →
    t.chan c = { ch with state := .armed, queue := queue } ∧ t.rpt = s.rpt.taking made
  arms : ∀ j rest, queue = j :: rest → j.start ≠ .now → (∀ h, ch.armed = some h → h.number ≠ j.number) →
    t.chan c = { ch with
      state := .armed, queue := queue
      armed := some ⟨j.number, if j.window = 0#16 then none else some (j.window.toNat * Config.clocksPerMilli), true⟩ } ∧
    t.rpt = s.rpt.taking made
  starts : ∀ j rest h x steps n, queue = j :: rest → j.start = .now → s.entry j.pattern = .ready h (x :: steps) n →
    (∀ k, x.kind ≠ .carrier k) →
    t.chan c = { ch with
      state := .playing, queue := rest, armed := none
      active := some ⟨j, 0, 0x00#8, j.override.getD h.repeats, x.duration.toNat * h.timeUnit.clocks, .running, none, none,
        ch.config.readback && decide (800 ≤ x.duration.toNat * h.timeUnit.clocks)⟩ } ∧
    t.rpt = s.rpt.taking (made
      ++ (if j.flags.reportStart then [⟨.started, s.rpt.partTime, some c, j.number, byteOf j.pattern.val, 0x00#8⟩] else [])
      ++ if x.mark && j.flags.marks then [⟨.mark, s.rpt.partTime, some c, j.number, 0x00#8, byteOf j.pattern.val⟩] else [])

/-- A channel whose record is `ch`, with the job `a` without an attachment, asks for a defined class (R81): it joins the generator that
holds the class, its gate open at once at a cycle start and opening otherwise (R82); it takes the lowest-numbered FREE generator, whose
first cycle starts (R83); or it waits behind all that wait already, its wait timer at the full limit (R84, R85). -/
structure State.Asks (s t : State) (c : Chan) (k : Cls) (ch : Channel) (a : Active) : Prop where
  joins : ∀ g, (s.gen g).cls = some k → (∀ g', (s.gen g').cls = some k → g' = g) →
    t.chan c = { ch with
      state := .playing, waitTimer := none
      active := some (if (s.gen g).phase = 0 then { a with attach := some ⟨g, .opened⟩, clock := .running }
        else { a with attach := some ⟨g, .opening⟩, clock := .notStarted }) } ∧
    t.gen g = .running k (s.gen g).phase (s.gen g).inHigh ∧ (∀ g', g' ≠ g → t.gen g' = s.gen g') ∧
    t.carb.waitList = s.carb.waitList
  allocates : ∀ g, (∀ g', (s.gen g').cls ≠ some k) → s.gen g = .free → (∀ g', g' < g → s.gen g' ≠ .free) →
    t.chan c = { ch with
      state := .playing, waitTimer := none, active := some { a with attach := some ⟨g, .opened⟩, clock := .running } } ∧
    t.gen g = .running k 0 true ∧ (∀ g', g' ≠ g → t.gen g' = s.gen g') ∧ t.carb.waitList = s.carb.waitList
  waits : (∀ g, (s.gen g).cls ≠ some k ∧ s.gen g ≠ .free) →
    t.chan c = { ch with
      state := .carrierWait, active := some { a with clock := .notStarted }
      waitTimer := if ch.config.waitLimit = 0x00#8 then none
        else some (ch.config.waitLimit.toNat * Config.clocksPerMilli) } ∧
    t.carb.gens = s.carb.gens ∧ t.carb.waitList = s.carb.waitList ++ [⟨c, k⟩]
  classes : t.carb.classes = s.carb.classes

/-- Commands and events taken one after another. -/
def execAll : List Instr → State → Host.Outcome State Fault Refusal
  | [], s => .next s
  | i :: rest, s =>
    match exec i s with
    | .next t => execAll rest t
    | o => o

end Sys2Proof.Machine

namespace Sys2Proof

/-- The bytes of a PAT_OPEN give this id and this header, every field in its range (R10, R171). -/
def OpenFields.Spells (p : OpenFields) (id : PatId) (h : Machine.Header) : Prop :=
  p.id.toNat = id.val ∧ p.steps.toNat = h.count ∧ 1 ≤ h.count ∧ h.count ≤ 64 ∧
    p.timeUnit = (match h.timeUnit with | .us1 => 0x00#8 | .us10 => 0x01#8 | .us100 => 0x02#8 | .ms1 => 0x03#8) ∧
    p.loopStart.toNat = h.loopStart ∧ h.loopStart < h.count ∧ p.repeats = h.repeats ∧
    match h.final with
    | .finish => p.finalAction = 0x00#8 ∧ p.target = 0x00#8
    | .chain q => p.finalAction = 0x01#8 ∧ p.target.toNat = q.val

/-- The bytes of a PLAY name this channel and give the fields of this job but its number, every field in its range and consistent with
the others (R24, R27, R171, R173). -/
def PlayFields.Spells (p : PlayFields) (c : Chan) (j : Machine.Job) : Prop :=
  p.channel.toNat = c.val ∧ p.pattern.toNat = j.pattern.val ∧ p.priority.toNat = j.priority.val ∧ p.window = j.window ∧
    (match j.start with
      | .now => p.start = 0x00#8 ∧ p.line = 0x00#8 ∧ p.edge = 0x00#8 ∧ j.window = 0#16
      | .sense l e => p.start = 0x01#8 ∧ p.line.toNat = l.val ∧
          p.edge = match e with | .rise => 0x01#8 | .fall => 0x02#8 | .either => 0x03#8
      | .go => p.start = 0x02#8 ∧ p.line = 0x00#8 ∧ p.edge = 0x00#8) ∧
    (match j.override with
      | none => p.overrideFlag = 0x00#8 ∧ p.override = 0x00#8
      | some r => p.overrideFlag = 0x01#8 ∧ p.override = r) ∧
    p.flags.toNat = j.flags.preempt.toNat + 2 * j.flags.reportStart.toNat + 4 * j.flags.reportEnd.toNat
      + 8 * j.flags.marks.toNat

/-- The command of a command row, with the unit byte and the tag of its frame; none for an event row. -/
def Instr.request : Instr → Option (Via × Machine.Request)
  | .ident v => some (v, .ident)
  | .status v clear => some (v, .status clear)
  | .reset v scope => some (v, .reset scope)
  | .lease v period => some (v, .lease period)
  | .recover v => some (v, .recover)
  | .time v => some (v, .time)
  | .attnConfig v enable threshold holdTime => some (v, .attnConfig enable threshold holdTime)
  | .fetch v k => some (v, .fetch k)
  | .ack v batchTag => some (v, .ack batchTag)
  | .patOpen v p => some (v, .patOpen p)
  | .patSteps v id first records => some (v, .patSteps id first records)
  | .patSeal v id => some (v, .patSeal id)
  | .patDiscard v id => some (v, .patDiscard id)
  | .patDelete v id => some (v, .patDelete id)
  | .patInfo v id => some (v, .patInfo id)
  | .patRead v id first count => some (v, .patRead id first count)
  | .carSet v cls period high => some (v, .carSet cls period high)
  | .carClear v cls => some (v, .carClear cls)
  | .carStatus v part => some (v, .carStatus part)
  | .chConfig v p => some (v, .chConfig p)
  | .chEnable v mask => some (v, .chEnable mask)
  | .chDisable v mask force => some (v, .chDisable mask force)
  | .chDisableForce v mask => some (v, .chDisable mask 0x01#8)
  | .play v p => some (v, .play p)
  | .cancel v channel job => some (v, .cancel channel job)
  | .stop v mask boundary flush => some (v, .stop mask boundary flush)
  | .hold v mask => some (v, .hold mask)
  | .resume v mask => some (v, .resume mask)
  | .go v mask => some (v, .go mask)
  | .clearFault v mask => some (v, .clearFault mask)
  | .chStatus v channel => some (v, .chStatus channel)
  | .snConfig v line selection filter => some (v, .snConfig line selection filter)
  | .lines v => some (v, .lines)
  | .hardwareReset _ _ _ => none
  | .characterReceived _ _ => none
  | .gapAbort => none
  | .frameReceived _ => none
  | .replyEnd _ => none
  | .loadTimerExpiry => none
  | .triggerWindowExpiry _ => none
  | .stepEnd _ => none
  | .cycleEnd _ => none
  | .carrierWaitExpiry _ => none
  | .readbackSample _ _ => none
  | .senseSample _ => none
  | .holdAgeReached => none
  | .leaseExpiry => none
  | .highPortionEnd _ => none
  | .startBit => none

end Sys2Proof
end

