-- ==== Sys2Proof/Certificates/Slice0/Obligations.lean ====
section
/-! DEFINITION. The statements for the provers, chapter by chapter of the manual. A statement about a command row has the form: in a
settled state in which the command is executed at once (`State.Executes`), the row answers a next state with the values that the
rule gives, the reply that the rule gives, and every other block as it was (`State.Answered`, `State.Refused`). What a command row
stands for is said in log 11. -/

section

open Sys2Proof Sys2Proof.Machine

/-! ### The queue, the clock and the resets -/

/-- A step takes the command or event at the front of the queue and runs its meaning on the state with the queue's rest. This is
the model's own form of the command path of section 0.3. -/
def Obligations.StepTakesTheFront : Prop :=
  ∀ (i : Instr) (rest : List Instr) (s : State),
    step { s with pending := i :: rest } = exec i { s with pending := rest }

/-- With nothing waiting, one reference clock passes (the model's choice, log 6): every running timer counts by one clock (R4,
R35, R51, R80, R85, R123, R139), what no timer drives stays, and what then waits, in some order, is exactly what has fallen due at the
new moment: the expiry of a timer that stands at 0 (R16, R36, R51, R85, R142), the end of the high portion and of the cycle of a
generator (R80, R100), a readback sample at 10 µs before the end of its step (R105), the sample of the grid after 100 µs (R112), the hold
age (R135), the gap limit (R152) and the end of a reply (R160); the pin levels that come with a sample are free values (log 2, log 3).
Besides the clock itself three clauses are the model's and no rule's: the gap limit and the end of a reply fall on the first reference
clock at or after the exact moment (the model's choice, log 10); a window that already stood at 0 on an ARMED channel falls due at this
clock (the model's choice, log 29); and the armed heads' fresh marks are cleared (read from R33, log 22). -/
def Obligations.OneReferenceClock : Prop :=
  ∀ s : State, s.pending = [] → ∃ t, step s = .next t ∧
    t.rpt = (if s.rpt.subMicro + 1 < 8 then { s.rpt with subMicro := s.rpt.subMicro + 1 }
      else { s.rpt with subMicro := 0, partTime := s.rpt.partTime + 1#32 }) ∧
    t.lease.period = s.lease.period ∧
    (∀ n, s.lease.state = .running (n + 1) → t.lease.state = .running n) ∧
    (s.lease.state = .off ∨ s.lease.state = .expired → t.lease.state = s.lease.state) ∧
    t.ptab.entries = s.ptab.entries ∧
    (∀ p n, s.ptab.load = some ⟨p, n + 1⟩ → t.ptab.load = some ⟨p, n⟩) ∧
    (s.ptab.load = none → t.ptab.load = none) ∧
    (∀ c, t.chan c = { s.chan c with
      active := (s.chan c).active.map fun a => if a.clock = .running then { a with remaining := a.remaining - 1 } else a
      armed := (s.chan c).armed.map fun h =>
        { h with window := if (s.chan c).state = .armed then h.window.map (· - 1) else h.window, fresh := false }
      waitTimer := (s.chan c).waitTimer.map (· - 1) }) ∧
    t.carb.classes = s.carb.classes ∧ t.carb.waitList = s.carb.waitList ∧
    (∀ g, (t.gen g).cls = (s.gen g).cls ∧ (t.gen g).code = (s.gen g).code ∧ (t.gen g).inHigh = (s.gen g).inHigh ∧
      (t.gen g).phase = if s.gen g = .free then 0 else (s.gen g).phase + 1) ∧
    t.outs = s.outs ∧ t.sense.lines = s.sense.lines ∧ t.sense.grid = s.sense.grid + 1 ∧ t.nextJob = s.nextJob ∧
    t.link = { s.link with
      gap := s.link.gap.map (· + 1)
      sending := s.link.sending.map fun x => { x with elapsed := x.elapsed + 1 } } ∧
    t.outbox = s.outbox ∧ t.clock = s.clock + 1 ∧
    let due := fun (p : Prop) [Decidable p] (i : Instr) => if p then [i] else []
    let observed := Config.outPins t.clock (t.outs.toList.map Driven.code)
    let sensed := Config.sensePins t.clock
    t.pending.Perm
      (due (t.ptab.load.map Load.remaining = some 0) .loadTimerExpiry
      ++ ((List.finRange 8).flatMap fun c : Chan =>
        due ((t.chan c).state = .armed ∧ (t.chan c).armed.bind ArmedHead.window = some 0) (.triggerWindowExpiry c)
        ++ due ((t.chan c).state = .carrierWait ∧ (t.chan c).waitTimer = some 0) (.carrierWaitExpiry c)
        ++ match (t.chan c).active with
          | none => []
          | some a =>
            due ((t.chan c).state = .playing ∧ a.attach = none ∧ a.clock = .running ∧ a.remaining = 0) (.stepEnd c)
            ++ due ((t.chan c).state = .playing ∧ a.attach = none ∧ a.clock = .running ∧ a.sampleDue = true ∧
                a.remaining = 80) (.readbackSample c (observed.getLsbD c.val)))
      ++ ((List.finRange 3).flatMap fun g : GenId => match (t.gen g).cls with
        | none => []
        | some k =>
          let x := (t.carrierClass k).getD ⟨0, 0⟩
          due ((t.gen g).inHigh = true ∧ x.high ≤ (t.gen g).phase) (.highPortionEnd g)
          ++ due (x.period ≤ (t.gen g).phase) (.cycleEnd g))
      ++ due (800 ≤ t.sense.grid) (.senseSample sensed)
      ++ (match t.rpt.queue[t.rpt.batchSize]? with
        | none => []
        | some r => due (t.rpt.holdTime ≠ 0x00#8 ∧ t.rpt.ageReached = false ∧
            t.rpt.holdTime.toNat * 1000 ≤ (t.rpt.partTime - r.report.time).toNat) .holdAgeReached)
      ++ due (t.lease.state = .running 0) .leaseExpiry
      ++ (match t.link.gap with
        | none => []
        | some n => due (3 * 10 * 8000000 ≤ n * lineRate t.link.rate) .gapAbort)
      ++ match t.link.sending with
        | none => []
        | some x => due (x.bytes.length * 10 * 8000000 ≤ x.elapsed * lineRate t.link.rate) (.replyEnd sensed))

/-- A hardware reset, with the straps and the sense pins as they stand at its end, gives every block the values of R21, R47, R96,
R110, R119, R137, R147 and R165, from any state. -/
def Obligations.HardwareReset : Prop :=
  ∀ (address : BitVec 4) (rate : BitVec 2) (pins : BitVec 8) (s : State),
    ∃ t, exec (.hardwareReset address rate pins) s = .next t ∧
      (∀ p, t.entry p = .free) ∧ t.ptab.load = none ∧
      (∀ c, t.chan c = ⟨.off, ⟨false, false, false, .released, false, true, 0x00#8⟩, none, [], none, none, false, none⟩) ∧
      t.nextJob = 1#16 ∧
      (∀ k, t.carrierClass k = none) ∧ (∀ g, t.gen g = .free) ∧ t.carb.waitList = [] ∧
      (∀ c : Chan, t.outs[c] = .released) ∧
      (∀ l : Line, t.senseLine l = ⟨.none, 0x00#8, pins.getLsbD l.val, pins.getLsbD l.val, 0⟩) ∧ t.sense.grid = 0 ∧
      t.rpt = ⟨[], none, 0x00#8, 0#32, 0, true, 1, 0x00#8, false, false⟩ ∧
      t.lease = ⟨0, .off⟩ ∧
      t.link = ⟨address, rate, .hunt, none, none, none, none, ⟨0#16, 0#16, 0#16, 0#16, 0#16⟩⟩ ∧
      t.Settled

/-- Every invariant that the later statements show kept by every step holds in the state after reset. -/
def Obligations.InvariantsHoldAtReset : Prop :=
  State.reset.rpt.Ok ∧ State.reset.ptab.Ok ∧ State.reset.ClassesOk ∧ State.reset.CarriersOk ∧
    (∀ c, (State.reset.chan c).QueueOk) ∧ State.reset.NumbersOk ∧ State.reset.ChannelsOk ∧ State.reset.WaitersOk ∧
    State.reset.LeaseOk ∧ State.reset.RefsOk ∧ State.reset.UsersOk ∧ State.reset.Settled

/-! ### PTAB (chapter 1) -/

/-- PAT_OPEN with valid fields, whose bytes spell an id and a header (R10), is decided in the three steps of R11: another id in the load
slot, an entry in use, no room; and otherwise the entry is LOADING with the new header and no steps, the load slot holds the id with 500
ms on its timer, and the reply carries the free steps. -/
def Obligations.PatOpenDecides : Prop :=
  ∀ (s : State) (v : Via) (p : OpenFields) (id : PatId) (h : Header),
    s.Settled → s.RefsOk → s.ptab.Ok → s.Executes v (.patOpen p) → p.Spells id h →
    ∃ t, exec (.patOpen v p) s = .next t ∧
      let other := ∃ l, s.ptab.load = some l ∧ l.id ≠ id
      let used := ∃ h' steps n, s.entry id = .ready h' steps (n + 1)
      let room := s.ptab.freeSteps + (s.entry id).reserved
      (other → s.Refused t v (.patOpen p) .loadPending []) ∧
      (¬other → used → s.Refused t v (.patOpen p) .inUse []) ∧
      (¬other → ¬used → room < h.count → s.Refused t v (.patOpen p) .noRoom []) ∧
      (¬other → ¬used → h.count ≤ room →
        s.Answered t v (.patOpen p) (natBytes2 (room - h.count)) [.patterns] ∧
        t.entry id = .loading h [] ∧ (∀ q, q ≠ id → t.entry q = s.entry q) ∧
        t.ptab.load = some ⟨id, 500 * Config.clocksPerMilli⟩ ∧ t.ptab.freeSteps = room - h.count)

/-- PAT_STEPS with 1 to 8 valid records and an end of at most 64 (R12): NOT_FOUND for an id that is not the one in the load slot, and
BAD_FIELD for an end above the n of the open entry; a command that passes these checks is decided as R13 says: an append at the loaded
count, an exact re-send, or a sequence error. -/
def Obligations.PatStepsDecides : Prop :=
  (∀ (s : State) (v : Via) (id first : Byte) (records : List RawStep) (p : PatId) (new : List Step),
    s.Settled → s.Executes v (.patSteps id first records) → p.val = id.toNat → 1 ≤ records.length → records.length ≤ 8 →
    validSteps? records = some new → first.toNat + new.length ≤ 64 →
    ∃ t, exec (.patSteps v id first records) s = .next t ∧
      ((∀ l, s.ptab.load = some l → l.id ≠ p) → s.Refused t v (.patSteps id first records) .notFound []) ∧
      ∀ l h steps, s.ptab.load = some l → l.id = p → s.entry p = .loading h steps → h.count < first.toNat + new.length →
        s.Refused t v (.patSteps id first records) .badField []) ∧
  ∀ (s : State) (v : Via) (id first : Byte) (records : List RawStep) (p : PatId) (new : List Step) (l : Load) (h : Header)
    (steps : List Step),
    s.Settled → s.Executes v (.patSteps id first records) → p.val = id.toNat → 1 ≤ records.length → records.length ≤ 8 →
    validSteps? records = some new → first.toNat + new.length ≤ 64 → s.ptab.load = some l → l.id = p →
    s.entry p = .loading h steps → first.toNat + new.length ≤ h.count →
    ∃ t, exec (.patSteps v id first records) s = .next t ∧
      let append := first.toNat = steps.length
      let resend := first.toNat + new.length ≤ steps.length ∧
        ∀ i, i < new.length → steps[first.toNat + i]? = new[i]?
      (append →
        s.Answered t v (.patSteps id first records) [byteOf (steps.length + new.length)] [.patterns] ∧
        t.entry p = .loading h (steps ++ new) ∧ (∀ q, q ≠ p → t.entry q = s.entry q) ∧
        t.ptab.load = some ⟨p, 500 * Config.clocksPerMilli⟩) ∧
      (¬append → resend →
        s.Answered t v (.patSteps id first records) [byteOf steps.length] [.patterns] ∧
        t.ptab.entries = s.ptab.entries ∧ t.ptab.load = some ⟨p, 500 * Config.clocksPerMilli⟩) ∧
      (¬append → ¬resend →
        s.Refused t v (.patSteps id first records) .sequence [byteOf steps.length])

/-- PAT_SEAL (R14): BAD_FIELD above 31, NOT_FOUND for an id that is not in the load slot, SEQUENCE with the loaded count below n,
and otherwise a READY entry that no job names, and an empty load slot. -/
def Obligations.PatSealDecides : Prop :=
  ∀ (s : State) (v : Via) (id : Byte), s.Settled → s.RefsOk → s.Executes v (.patSeal id) →
    ∃ t, exec (.patSeal v id) s = .next t ∧
      (32 ≤ id.toNat → s.Refused t v (.patSeal id) .badField []) ∧
      ∀ p : PatId, p.val = id.toNat →
        ((∀ l, s.ptab.load = some l → l.id ≠ p) → s.Refused t v (.patSeal id) .notFound []) ∧
        ∀ l h steps, s.ptab.load = some l → l.id = p → s.entry p = .loading h steps →
          (steps.length < h.count → s.Refused t v (.patSeal id) .sequence [byteOf steps.length]) ∧
          (h.count ≤ steps.length →
            s.Answered t v (.patSeal id) [byteOf h.count] [.patterns] ∧
            t.entry p = .ready h steps 0 ∧ (∀ q, q ≠ p → t.entry q = s.entry q) ∧ t.ptab.load = none)

/-- PAT_DISCARD (R15): BAD_FIELD above 31, NOT_FOUND for an id that is not in the load slot, and otherwise the entry is FREE, its
pool positions are returned and the load slot is empty; no report is made. -/
def Obligations.PatDiscardDecides : Prop :=
  ∀ (s : State) (v : Via) (id : Byte), s.Settled → s.Executes v (.patDiscard id) →
    ∃ t, exec (.patDiscard v id) s = .next t ∧
      (32 ≤ id.toNat → s.Refused t v (.patDiscard id) .badField []) ∧
      ∀ p : PatId, p.val = id.toNat →
        ((∀ l, s.ptab.load = some l → l.id ≠ p) → s.Refused t v (.patDiscard id) .notFound []) ∧
        ∀ l h steps, s.ptab.load = some l → l.id = p → s.entry p = .loading h steps →
          s.Answered t v (.patDiscard id) [] [.patterns] ∧
          t.entry p = .free ∧ (∀ q, q ≠ p → t.entry q = s.entry q) ∧ t.ptab.load = none ∧
          t.ptab.reservedSteps + h.count = s.ptab.reservedSteps

/-- PAT_DELETE (R18): BAD_FIELD above 31, NOT_FOUND for a FREE or LOADING entry, IN_USE for a READY entry that a job names, and
otherwise the entry is FREE and the reply carries the free steps after the deletion. -/
def Obligations.PatDeleteDecides : Prop :=
  ∀ (s : State) (v : Via) (id : Byte), s.Settled → s.RefsOk → s.ptab.Ok → s.Executes v (.patDelete id) →
    ∃ t, exec (.patDelete v id) s = .next t ∧
      (32 ≤ id.toNat → s.Refused t v (.patDelete id) .badField []) ∧
      ∀ p : PatId, p.val = id.toNat →
        ((s.entry p).isReady = false → s.Refused t v (.patDelete id) .notFound []) ∧
        (∀ h steps n, s.entry p = .ready h steps (n + 1) → s.Refused t v (.patDelete id) .inUse []) ∧
        ∀ h steps, s.entry p = .ready h steps 0 →
          s.Answered t v (.patDelete id) (natBytes2 (s.ptab.freeSteps + h.count)) [.patterns] ∧
          t.entry p = .free ∧ (∀ q, q ≠ p → t.entry q = s.entry q) ∧ t.ptab.load = s.ptab.load ∧
          t.ptab.freeSteps = s.ptab.freeSteps + h.count

/-- PAT_INFO and PAT_READ change nothing (R19, R20). PAT_INFO answers for every entry with its state, the free steps and, unless
the entry is FREE, its header with the loaded count or the reference count; PAT_READ answers the records within the stored steps,
each in the form of PAT_STEPS, and refuses a FREE entry and a range past the stored steps. -/
def Obligations.PatInfoAndPatRead : Prop :=
  ∀ (s : State) (v : Via) (id first count : Byte) (p : PatId), s.Settled → p.val = id.toNat →
    (s.Executes v (.patInfo id) → ∃ t, exec (.patInfo v id) s = .next t ∧
      (s.entry p = .free → s.Answered t v (.patInfo id) (0x00#8 :: natBytes2 s.ptab.freeSteps) []) ∧
      (∀ h steps, s.entry p = .loading h steps →
        s.Answered t v (.patInfo id) (0x01#8 :: natBytes2 s.ptab.freeSteps
          ++ [byteOf h.count, h.timeUnit.code, byteOf h.loopStart, h.repeats, h.final.code, h.final.targetByte,
            byteOf steps.length]) []) ∧
      (∀ h steps n, s.entry p = .ready h steps n →
        s.Answered t v (.patInfo id) (0x02#8 :: natBytes2 s.ptab.freeSteps
          ++ [byteOf h.count, h.timeUnit.code, byteOf h.loopStart, h.repeats, h.final.code, h.final.targetByte,
            byteOf n]) [])) ∧
    (s.Executes v (.patRead id first count) → 1 ≤ count.toNat → count.toNat ≤ 8 → first.toNat + count.toNat ≤ 64 →
      ∃ t, exec (.patRead v id first count) s = .next t ∧
        (s.entry p = .free → s.Refused t v (.patRead id first count) .notFound []) ∧
        ∀ h steps, s.entry p = .loading h steps ∨ (∃ n, s.entry p = .ready h steps n) →
          (steps.length < first.toNat + count.toNat → s.Refused t v (.patRead id first count) .badField []) ∧
          (first.toNat + count.toNat ≤ steps.length →
            s.Answered t v (.patRead id first count) ([id, first, count]
              ++ ((steps.drop first.toNat).take count.toNat).flatMap fun x => rawStepBytes x.raw) []))

/-- LOAD_TIMER_EXPIRY (R16): with no time left on the load timer the open load is abandoned: the entry is FREE, the load slot is
empty, and one LOAD_ABANDONED report carries the pattern id and the loaded count. With time left, nothing has expired and nothing
changes (read from the rule, log 7). -/
def Obligations.LoadTimerExpires : Prop :=
  ∀ (s : State) (l : Load) (h : Header) (steps : List Step), s.Settled → s.ptab.load = some l →
    s.entry l.id = .loading h steps →
    ∃ t, exec .loadTimerExpiry s = .next t ∧
      (l.remaining ≠ 0 → t = s) ∧
      (l.remaining = 0 →
        t.entry l.id = .free ∧ (∀ q, q ≠ l.id → t.entry q = s.entry q) ∧ t.ptab.load = none ∧
        t.ptab.reservedSteps + h.count = s.ptab.reservedSteps ∧
        t.rpt = s.rpt.taking [⟨.loadAbandoned, s.rpt.partTime, none, 0#16, byteOf l.id.val, byteOf steps.length⟩] ∧
        s.KeepsAllBut t [.patterns, .reports] ∧ t.Settled)

/-! ### CARB (chapter 4) -/

/-- CAR_SET with a class of 0 to 7, a period of at least 16 and a high time of 1 to P − 1 (R77): IN_USE while a non-FREE generator
holds the class, and otherwise the class is defined with the new values. -/
def Obligations.CarSetDecides : Prop :=
  ∀ (s : State) (v : Via) (cls : Byte) (period high : Half) (k : Cls), s.Settled → s.Executes v (.carSet cls period high) →
    k.val = cls.toNat → 16 ≤ period.toNat → 1 ≤ high.toNat → high.toNat < period.toNat →
    ∃ t, exec (.carSet v cls period high) s = .next t ∧
      ((∃ g, (s.gen g).cls = some k) → s.Refused t v (.carSet cls period high) .inUse []) ∧
      ((∀ g, (s.gen g).cls ≠ some k) →
        s.Answered t v (.carSet cls period high) [] [.carriers] ∧
        t.carrierClass k = some ⟨period.toNat, high.toNat⟩ ∧ (∀ k', k' ≠ k → t.carrierClass k' = s.carrierClass k') ∧
        t.carb.gens = s.carb.gens ∧ t.carb.waitList = s.carb.waitList)

/-- CAR_CLEAR (R78): IN_USE while a non-FREE generator holds the class; an undefined class stays so with the count 0; a defined
class for which no channel waits becomes undefined with the count 0; and a defined class for which one channel alone is on the wait
list becomes undefined, the job of that channel ends NO_CARRIER_CLASS and is counted, and with nothing queued its channel is
IDLE. -/
def Obligations.CarClearDecides : Prop :=
  ∀ (s : State) (v : Via) (cls : Byte) (k : Cls), s.Settled → s.Executes v (.carClear cls) → k.val = cls.toNat →
    ∃ t, exec (.carClear v cls) s = .next t ∧
      ((∃ g, (s.gen g).cls = some k) → s.Refused t v (.carClear cls) .inUse []) ∧
      ((∀ g, (s.gen g).cls ≠ some k) → s.carrierClass k = none →
        s.Answered t v (.carClear cls) [0x00#8] []) ∧
      ((∀ g, (s.gen g).cls ≠ some k) → s.carrierClass k ≠ none → (∀ w ∈ s.carb.waitList, w.cls ≠ k) →
        s.Answered t v (.carClear cls) [0x00#8] [.carriers] ∧
        t.carrierClass k = none ∧ (∀ k', k' ≠ k → t.carrierClass k' = s.carrierClass k') ∧
        t.carb.gens = s.carb.gens ∧ t.carb.waitList = s.carb.waitList) ∧
      ∀ c a, (∀ g, (s.gen g).cls ≠ some k) → s.carrierClass k ≠ none → s.carb.waitList = [⟨c, k⟩] →
        (s.chan c).state = .carrierWait → (s.chan c).active = some a → a.attach = none → (s.chan c).queue = [] →
        s.Answered t v (.carClear cls) [0x01#8] [.patterns, .channels, .carriers, .outputs, .reports] ∧
        t.carrierClass k = none ∧ (∀ k', k' ≠ k → t.carrierClass k' = s.carrierClass k') ∧
        t.carb.gens = s.carb.gens ∧ t.carb.waitList = [] ∧
        t.chan c = { s.chan c with
          state := .idle, active := none, queue := [], armed := none, holdRequest := false, waitTimer := none } ∧
        s.KeepsChannelsBut t c ∧ s.Releases t ((s.chan c).naming ·) ∧
        t.rpt = s.rpt.taking
          [⟨.ended, s.rpt.partTime, some c, a.job.number, byteOf a.job.pattern.val, 0x05#8⟩]

/-- A request for a class is decided by the first of three steps (R81): it joins the generator that holds the class, its gate open
at once at a cycle start and opening otherwise (R82); it takes the lowest-numbered FREE generator as its one user, and the first cycle
starts at once (R83); or its channel waits behind every channel already waiting, its wait timer at the full limit (R84, R85). -/
def Obligations.CarrierRequestIsDecided : Prop :=
  ∀ (s : State) (c : Chan) (k : Cls) (a : Active), (s.chan c).active = some a → s.CarriersOk →
    (∀ g, (s.gen g).cls = some k →
      ((s.request c k).gen g).cls = some k ∧ ((s.request c k).gen g).phase = (s.gen g).phase ∧
      ((s.request c k).gen g).code = 0x01#8 ∧ (∀ g', g' ≠ g → (s.request c k).gen g' = s.gen g') ∧
      (s.request c k).carb.waitList = s.carb.waitList ∧
      ((s.request c k).chan c).state = .playing ∧
      ((s.gen g).phase = 0 → ((s.request c k).chan c).active
        = some { a with attach := some ⟨g, .opened⟩, clock := .running }) ∧
      ((s.gen g).phase ≠ 0 → ((s.request c k).chan c).active
        = some { a with attach := some ⟨g, .opening⟩, clock := .notStarted })) ∧
    (∀ g, (∀ g', (s.gen g').cls ≠ some k) → s.gen g = .free → (∀ g', g' < g → s.gen g' ≠ .free) →
      (s.request c k).gen g = .running k 0 true ∧ (∀ g', g' ≠ g → (s.request c k).gen g' = s.gen g') ∧
      (s.request c k).carb.waitList = s.carb.waitList ∧
      ((s.request c k).chan c).state = .playing ∧
      ((s.request c k).chan c).active = some { a with attach := some ⟨g, .opened⟩, clock := .running } ∧
      (s.users g = [] → (s.request c k).users g = [c])) ∧
    ((∀ g, (s.gen g).cls ≠ some k ∧ s.gen g ≠ .free) →
      (s.request c k).carb.gens = s.carb.gens ∧ (s.request c k).carb.waitList = s.carb.waitList ++ [⟨c, k⟩] ∧
      ((s.request c k).chan c).state = .carrierWait ∧
      ((s.request c k).chan c).active = some { a with attach := none, clock := .notStarted } ∧
      ((s.request c k).chan c).waitTimer = (if (s.chan c).config.waitLimit = 0x00#8 then none
        else some ((s.chan c).config.waitLimit.toNat * Config.clocksPerMilli))) ∧
    s.KeepsChannelsBut (s.request c k) c ∧ (s.request c k).carb.classes = s.carb.classes ∧
    (s.request c k).outbox = s.outbox

/-- HIGH_PORTION_END and CYCLE_END of a generator that holds a class. At the end of the high portion the low portion begins (R76,
R100). At a cycle end a DRAINING generator with nobody waiting is FREE (R88); a RUNNING generator begins its next cycle (R80): the
opening gate of its one user opens and that user's step clock starts (R82), or its one user plays on with an open gate and time left
(R56); and where it has several users, every opening gate opens and every other channel is as it was, if the open gates have time left,
no stop NOW and no hold request. Before its moment neither event has occurred and nothing changes (read from the rules, log 7). -/
def Obligations.CarrierCycle : Prop :=
  ∀ (s : State) (g : GenId) (k : Cls) (x : CarrierClass), s.Settled → (s.gen g).cls = some k → s.carrierClass k = some x →
    (∃ t, exec (.highPortionEnd g) s = .next t ∧
      ((s.gen g).inHigh = false ∨ (s.gen g).phase < x.high → t = s) ∧
      ((s.gen g).inHigh = true → x.high ≤ (s.gen g).phase →
        (t.gen g).inHigh = false ∧ (t.gen g).cls = some k ∧ (t.gen g).phase = (s.gen g).phase ∧
        (t.gen g).code = (s.gen g).code ∧ (∀ g', g' ≠ g → t.gen g' = s.gen g') ∧
        t.carb.classes = s.carb.classes ∧ t.carb.waitList = s.carb.waitList ∧
        s.KeepsAllBut t [.carriers, .outputs] ∧ t.Settled)) ∧
    ∃ t, exec (.cycleEnd g) s = .next t ∧
      ((s.gen g).phase < x.period → t = s) ∧
      (x.period ≤ (s.gen g).phase → (s.gen g).code = 0x02#8 → s.carb.waitList = [] →
        t.gen g = .free ∧ (∀ g', g' ≠ g → t.gen g' = s.gen g') ∧ t.carb.classes = s.carb.classes ∧
        t.carb.waitList = [] ∧ s.KeepsAllBut t [.carriers, .outputs] ∧ t.Settled) ∧
      (x.period ≤ (s.gen g).phase → (s.gen g).code = 0x01#8 →
        (∀ c a, c ∈ s.users g → (s.chan c).active = some a → a.attach = some ⟨g, .opened⟩ →
          a.remaining ≠ 0 ∧ a.stop.map PendingStop.boundary ≠ some .now ∧ (s.chan c).holdRequest = false) →
        t.gen g = .running k 0 true ∧ (∀ g', g' ≠ g → t.gen g' = s.gen g') ∧
        t.carb.classes = s.carb.classes ∧ t.carb.waitList = s.carb.waitList ∧
        (∀ c a, (s.chan c).active = some a → a.attach = some ⟨g, .opening⟩ → t.chan c = (s.chan c).served g) ∧
        (∀ c, (s.chan c).attachment ≠ some ⟨g, .opening⟩ → t.chan c = s.chan c) ∧
        s.KeepsAllBut t [.channels, .carriers, .outputs, .choices] ∧ t.Settled) ∧
      ∀ c a, x.period ≤ (s.gen g).phase → (s.gen g).code = 0x01#8 → s.users g = [c] → (s.chan c).active = some a →
        (a.attach = some ⟨g, .opening⟩ →
          t.gen g = .running k 0 true ∧ (∀ g', g' ≠ g → t.gen g' = s.gen g') ∧
          t.carb.classes = s.carb.classes ∧ t.carb.waitList = s.carb.waitList ∧
          t.chan c = { s.chan c with
            state := .playing, waitTimer := none
            active := some { a with attach := some ⟨g, .opened⟩, clock := .running } } ∧
          s.KeepsChannelsBut t c ∧ s.KeepsAllBut t [.channels, .carriers, .outputs] ∧ t.Settled) ∧
        (a.attach = some ⟨g, .opened⟩ → a.remaining ≠ 0 → a.stop = none → (s.chan c).holdRequest = false →
          t.gen g = .running k 0 true ∧ (∀ g', g' ≠ g → t.gen g' = s.gen g') ∧
          t.carb.classes = s.carb.classes ∧ t.carb.waitList = s.carb.waitList ∧
          s.KeepsAllBut t [.carriers, .outputs] ∧ t.Settled)

/-- The gate of a generator's one user closes at a cycle end (R87): the step has run out and the steady step that follows is entered
(R52, R56); a stop NOW ends the job, and with nothing queued the channel is IDLE (R64); or a hold request takes effect with time left on
the step (R73). The generator is FREE, or with channels waiting it is granted in the same event to the oldest waiter's class (R90). A
CARRIER step of another class that follows asks for its class after that release (R94), or ends the job where the class is undefined
(R55). Where the step that follows is a CARRIER step of the same class, the gate stays open instead, the generator goes on with its next
cycle, nobody is granted it, and the new step's clock runs from its full length, with its MARK if due (R57). Where the generator has
other users, it goes on with its next cycle without the channel whose step has run out, and each of them keeps or opens its gate (R82,
R87). -/
def Obligations.GateCloses : Prop :=
  (∀ (s : State) (g : GenId) (k : Cls) (x : CarrierClass) (c : Chan) (a : Active) (h : Header) (steps : List Step) (n : Nat),
    s.Settled → s.WaitersOk → s.gen g = .running k x.period false → s.carrierClass k = some x → s.users g = [c] →
    (s.chan c).active = some a → (s.chan c).state = .playing → a.attach = some ⟨g, .opened⟩ →
    s.entry a.job.pattern = .ready h steps n →
    ∃ t, exec (.cycleEnd g) s = .next t ∧
      let oldest := s.carb.waitList.head?.map Waiter.cls
      let freed := (s.setGen g (match oldest with | none => .free | some k' => .running k' 0 true)).setWaitList
        (s.carb.waitList.filter fun w => oldest ≠ some w.cls)
      let grants := (∀ w ∈ s.carb.waitList, oldest = some w.cls → t.chan w.chan = (s.chan w.chan).served g) ∧
        (∀ d, d ≠ c → (∀ w ∈ s.carb.waitList, oldest = some w.cls → w.chan ≠ d) → t.chan d = s.chan d) ∧ t.Settled
      let frees := grants ∧ t.carb.gens = freed.carb.gens ∧ t.carb.classes = s.carb.classes ∧
        t.carb.waitList = freed.carb.waitList
      let marked := fun y : Step => t.rpt = s.rpt.taking (if y.mark && a.job.flags.marks then
        [⟨.mark, s.rpt.partTime, some c, a.job.number, byteOf (a.stepIndex + 1), byteOf a.job.pattern.val⟩] else [])
      let ended := fun o : Byte =>
        t.chan c = { s.chan c with
          state := .idle, active := none, queue := [], armed := none, holdRequest := false, waitTimer := none } ∧
        s.Releases t ((s.chan c).naming ·) ∧
        t.rpt = s.rpt.taking [⟨.ended, s.rpt.partTime, some c, a.job.number, byteOf a.job.pattern.val, o⟩] ∧
        s.KeepsAllBut t [.patterns, .channels, .carriers, .outputs, .reports]
      (∀ y : Step, a.remaining = 0 → a.stop = none → (s.chan c).holdRequest = false → a.stepIndex + 1 < h.count →
        steps[a.stepIndex + 1]? = some y → (∀ k', y.kind ≠ .carrier k') →
        frees ∧
        t.chan c = { s.chan c with
          active := some { a with
            stepIndex := a.stepIndex + 1
            remaining := y.duration.toNat * h.timeUnit.clocks
            clock := .running
            attach := none
            sampleDue := (s.chan c).config.readback && decide (800 ≤ y.duration.toNat * h.timeUnit.clocks) } } ∧
        marked y ∧ s.KeepsAllBut t [.channels, .carriers, .outputs, .reports]) ∧
      (∀ o, a.stop = some ⟨.now, o⟩ → (s.chan c).holdRequest = false → (s.chan c).queue = [] →
        frees ∧ ended o.outcome.byte) ∧
      (∀ (y z : Step) (k' : Cls), a.remaining = 0 → a.stop = none → (s.chan c).holdRequest = false →
        a.stepIndex + 1 < h.count → steps[a.stepIndex]? = some z → z.kind = .carrier k → steps[a.stepIndex + 1]? = some y →
        y.kind = .carrier k' → k' ≠ k →
        (s.carrierClass k' = none → (s.chan c).queue = [] → frees ∧ ended 0x05#8) ∧
        (s.carrierClass k' ≠ none →
          grants ∧
          freed.Asks t c k' (s.chan c) { a with
            stepIndex := a.stepIndex + 1
            remaining := y.duration.toNat * h.timeUnit.clocks
            clock := .notStarted
            attach := none
            sampleDue := false } ∧
          marked y ∧ s.KeepsAllBut t [.channels, .carriers, .outputs, .reports])) ∧
      (∀ y z : Step, a.remaining = 0 → a.stop = none → (s.chan c).holdRequest = false → a.stepIndex + 1 < h.count →
        steps[a.stepIndex]? = some z → z.kind = .carrier k → steps[a.stepIndex + 1]? = some y → y.kind = .carrier k →
        t.gen g = .running k 0 true ∧ (∀ g', g' ≠ g → t.gen g' = s.gen g') ∧ t.carb.classes = s.carb.classes ∧
        t.carb.waitList = s.carb.waitList ∧ s.KeepsChannelsBut t c ∧
        t.chan c = { s.chan c with
          active := some { a with
            stepIndex := a.stepIndex + 1
            remaining := y.duration.toNat * h.timeUnit.clocks
            clock := .running } } ∧
        marked y ∧ s.KeepsAllBut t [.channels, .carriers, .outputs, .reports] ∧ t.Settled) ∧
      (a.remaining ≠ 0 → a.stop = none → a.clock = .running → (s.chan c).holdRequest = true →
        frees ∧
        t.chan c = { s.chan c with
          state := .held, hold := some ⟨.playing, some .inCarrier⟩, holdRequest := false, waitTimer := none
          active := some { a with
            attach := none, clock := .frozen, sampleDue := a.sampleDue && decide (a.remaining ≠ 80) } } ∧
        s.KeepsAllBut t [.channels, .carriers, .outputs])) ∧
  ∀ (s : State) (g : GenId) (k : Cls) (x : CarrierClass) (c : Chan) (a : Active) (h : Header) (steps : List Step) (n : Nat)
    (y : Step),
    s.Settled → s.gen g = .running k x.period false → s.carrierClass k = some x → c ∈ s.users g → s.users g ≠ [c] →
    (s.chan c).active = some a → (s.chan c).state = .playing → a.attach = some ⟨g, .opened⟩ →
    s.entry a.job.pattern = .ready h steps n → a.remaining = 0 → a.stop = none → (s.chan c).holdRequest = false →
    a.stepIndex + 1 < h.count → steps[a.stepIndex + 1]? = some y → (∀ k', y.kind ≠ .carrier k') →
    (∀ d b, d ∈ s.users g → d ≠ c → (s.chan d).active = some b → b.attach = some ⟨g, .opened⟩ →
      b.remaining ≠ 0 ∧ b.stop.map PendingStop.boundary ≠ some .now ∧ (s.chan d).holdRequest = false) →
    ∃ t, exec (.cycleEnd g) s = .next t ∧
      t.gen g = .running k 0 true ∧ (∀ g', g' ≠ g → t.gen g' = s.gen g') ∧ t.carb.classes = s.carb.classes ∧
      t.carb.waitList = s.carb.waitList ∧ t.users g = (s.users g).filter (fun d => d ≠ c) ∧
      t.chan c = { s.chan c with
        active := some { a with
          stepIndex := a.stepIndex + 1
          remaining := y.duration.toNat * h.timeUnit.clocks
          clock := .running
          attach := none
          sampleDue := (s.chan c).config.readback && decide (800 ≤ y.duration.toNat * h.timeUnit.clocks) } } ∧
      (∀ d b, (s.chan d).active = some b → b.attach = some ⟨g, .opening⟩ → t.chan d = (s.chan d).served g) ∧
      (∀ d, d ≠ c → (s.chan d).attachment ≠ some ⟨g, .opening⟩ → t.chan d = s.chan d) ∧
      t.rpt = s.rpt.taking (if y.mark && a.job.flags.marks then
        [⟨.mark, s.rpt.partTime, some c, a.job.number, byteOf (a.stepIndex + 1), byteOf a.job.pattern.val⟩] else []) ∧
      s.KeepsAllBut t [.channels, .carriers, .outputs, .reports, .choices] ∧ t.Settled

/-- A FREE generator is granted in the event in which it becomes FREE (R90): at the drain end of a DRAINING generator the oldest
waiter's class is taken, its first cycle starts at once, every channel that waits for that class plays on that generator with its
gate open, its step clock running and its wait timer stopped, and the other waiters keep their places. No report is made. -/
def Obligations.FreeGeneratorIsGranted : Prop :=
  ∀ (s : State) (g : GenId) (k : Cls) (x : CarrierClass) (high : Bool) (w : Waiter) (rest : List Waiter), s.Settled →
    s.WaitersOk → s.gen g = .draining k x.period high → s.carrierClass k = some x → s.carb.waitList = w :: rest →
    ∃ t, exec (.cycleEnd g) s = .next t ∧
      t.gen g = .running w.cls 0 true ∧ (∀ g', g' ≠ g → t.gen g' = s.gen g') ∧ t.carb.classes = s.carb.classes ∧
      t.carb.waitList = (w :: rest).filter (fun y => y.cls ≠ w.cls) ∧
      (∀ y ∈ w :: rest, y.cls = w.cls → t.chan y.chan = { s.chan y.chan with
        state := .playing, waitTimer := none
        active := (s.chan y.chan).active.map fun a => { a with attach := some ⟨g, .opened⟩, clock := .running } }) ∧
      (∀ c, (∀ y ∈ w :: rest, y.cls = w.cls → y.chan ≠ c) → t.chan c = s.chan c) ∧
      s.KeepsAllBut t [.channels, .carriers, .outputs] ∧ t.Settled

/-- CARRIER_WAIT_EXPIRY (R85): with no time left on a waiting channel's timer its job ends CARRIER_TIMEOUT, the channel leaves the
wait list, and with nothing queued it is IDLE. With time left nothing has expired and nothing changes (read from the
rule, log 7). -/
def Obligations.CarrierWaitExpires : Prop :=
  ∀ (s : State) (c : Chan) (a : Active) (n : Nat), s.Settled → (s.chan c).state = .carrierWait →
    (s.chan c).active = some a → a.attach = none → (s.chan c).waitTimer = some n → (s.chan c).queue = [] →
    ∃ t, exec (.carrierWaitExpiry c) s = .next t ∧
      (n ≠ 0 → t = s) ∧
      (n = 0 →
        t.chan c = { s.chan c with
          state := .idle, active := none, queue := [], armed := none, holdRequest := false, waitTimer := none } ∧
        s.KeepsChannelsBut t c ∧ s.Releases t ((s.chan c).naming ·) ∧
        t.carb.waitList = s.carb.waitList.filter (fun w => w.chan ≠ c) ∧ t.carb.gens = s.carb.gens ∧
        t.carb.classes = s.carb.classes ∧
        t.rpt = s.rpt.taking
          [⟨.ended, s.rpt.partTime, some c, a.job.number, byteOf a.job.pattern.val, 0x04#8⟩] ∧
        s.KeepsAllBut t [.patterns, .channels, .carriers, .outputs, .reports] ∧ t.Settled)

/-! ### The channel controllers (chapters 2 and 3) -/

/-- A PLAY with valid fields is checked against the channel and the pattern in the order of R28, and the first check that fails
gives the status; a PLAY that passes all four is answered OK. -/
def Obligations.PlayChecksInOrder : Prop :=
  ∀ (s : State) (v : Via) (p : PlayFields) (c : Chan) (j : Job), s.Settled → s.Executes v (.play p) →
    p.Spells c j →
    ∃ t, exec (.play v p) s = .next t ∧
      let barred := (s.chan c).state = .off ∨ (s.chan c).state = .fault
      let safe := (s.chan c).state = .safe
      let ready := ∃ h steps n, s.entry j.pattern = .ready h steps n
      (barred → s.Refused t v (.play p) .badState []) ∧
      (¬barred → safe → s.Refused t v (.play p) .safeState []) ∧
      (¬barred → ¬safe → ¬ready → s.Refused t v (.play p) .notFound []) ∧
      (¬barred → ¬safe → ready → 4 ≤ (s.chan c).queue.length → s.Refused t v (.play p) .queueFull []) ∧
      (¬barred → ¬safe → ready → (s.chan c).queue.length < 4 → ∃ position preempted,
        t.link = s.link.answering v (.play p) (statusOk :: (halfBytes s.allocatedNumber ++ [position, preempted])) none)

/-- A PLAY accepted on an IDLE channel (R29): the job takes the next free number and a reference to its pattern. With NOW it starts at
once (R31), its playing fields set (R49) and its step 0, a steady one here, entered (R50), with its STARTED and MARK reports in that
order (R45, R59), and the reply says position 0. With SENSE or GO the channel is ARMED with it, its trigger window at the full value
(R23, R35), and the reply says position 1. A NOW job whose step 0 is a CARRIER step ends NO_CARRIER_CLASS in the same event if the class
is undefined, after its STARTED report, and the reply says position 0 (R55, R182); with a defined class it joins the generator that holds
it (R82), takes the lowest-numbered FREE generator, or waits when none is FREE (R83, R84). A PLAY accepted on an ARMED channel waits
behind a head of equal or higher priority, whose window runs on; with a higher priority it displaces the head, which is not dropped, and
arms or starts as on an IDLE channel (R38). -/
def Obligations.PlayOnIdleChannel : Prop :=
  (∀ (s : State) (v : Via) (p : PlayFields) (c : Chan) (j : Job) (h : Header) (x : Step) (steps : List Step) (n : Nat),
    s.Settled → s.Executes v (.play p) → p.Spells c j →
    (s.chan c).state = .idle → (s.chan c).active = none → (s.chan c).queue = [] → (s.chan c).armed = none →
    s.entry j.pattern = .ready h (x :: steps) n → (∀ k, x.kind ≠ .carrier k) →
    let number := s.allocatedNumber
    let length := x.duration.toNat * h.timeUnit.clocks
    ∃ t, exec (.play v p) s = .next t ∧
      t.nextJob = nextNumber number ∧ t.entry j.pattern = .ready h (x :: steps) (n + 1) ∧
      (∀ q, q ≠ j.pattern → t.entry q = s.entry q) ∧ t.ptab.load = s.ptab.load ∧ s.KeepsChannelsBut t c ∧
      (j.start = .now →
        t.chan c = { s.chan c with
          state := .playing
          active := some ⟨{ j with number := number }, 0, 0x00#8, j.override.getD h.repeats, length, .running, none, none,
            (s.chan c).config.readback && decide (800 ≤ length)⟩ } ∧
        t.rpt = s.rpt.taking
          ((if j.flags.reportStart then
              [⟨.started, s.rpt.partTime, some c, number, byteOf j.pattern.val, 0x00#8⟩] else [])
            ++ if x.mark && j.flags.marks then
              [⟨.mark, s.rpt.partTime, some c, number, 0x00#8, byteOf j.pattern.val⟩] else []) ∧
        s.Answered t v (.play p) (halfBytes number ++ [0x00#8, 0x00#8])
          [.patterns, .channels, .jobCounter, .outputs, .reports]) ∧
      (j.start ≠ .now →
        t.chan c = { s.chan c with
          state := .armed
          queue := [{ j with number := number }]
          armed := some ⟨number, if j.window = 0#16 then none else some (j.window.toNat * Config.clocksPerMilli), true⟩ } ∧
        s.Answered t v (.play p) (halfBytes number ++ [0x01#8, 0x00#8]) [.patterns, .channels, .jobCounter, .outputs])) ∧
  (∀ (s : State) (v : Via) (p : PlayFields) (c : Chan) (j : Job) (h : Header) (x : Step) (steps : List Step) (n : Nat) (k : Cls),
    s.Settled → s.WaitersOk → s.Executes v (.play p) → p.Spells c j → j.start = .now →
    (s.chan c).state = .idle → (s.chan c).active = none → (s.chan c).queue = [] → (s.chan c).armed = none →
    s.entry j.pattern = .ready h (x :: steps) n → x.kind = .carrier k →
    let number := s.allocatedNumber
    let started : List Report := if j.flags.reportStart then
      [⟨.started, s.rpt.partTime, some c, number, byteOf j.pattern.val, 0x00#8⟩] else []
    let marked : List Report := if x.mark && j.flags.marks then
      [⟨.mark, s.rpt.partTime, some c, number, 0x00#8, byteOf j.pattern.val⟩] else []
    let job : Active := ⟨{ j with number := number }, 0, 0x00#8, j.override.getD h.repeats,
      x.duration.toNat * h.timeUnit.clocks, .notStarted, none, none, false⟩
    ∃ t, exec (.play v p) s = .next t ∧
      t.nextJob = nextNumber number ∧ (∀ q, q ≠ j.pattern → t.entry q = s.entry q) ∧ t.ptab.load = s.ptab.load ∧
      s.KeepsChannelsBut t c ∧
      (s.carrierClass k = none →
        t.chan c = { s.chan c with state := .idle, holdRequest := false, waitTimer := none } ∧
        t.entry j.pattern = s.entry j.pattern ∧
        t.rpt = s.rpt.taking
          (started ++ [⟨.ended, s.rpt.partTime, some c, number, byteOf j.pattern.val, 0x05#8⟩]) ∧
        s.Answered t v (.play p) (halfBytes number ++ [0x00#8, 0x00#8]) [.patterns, .channels, .jobCounter, .reports]) ∧
      (s.carrierClass k ≠ none → (∀ g, (s.gen g).cls ≠ some k) →
        t.entry j.pattern = .ready h (x :: steps) (n + 1) ∧ t.rpt = s.rpt.taking (started ++ marked) ∧
        s.Answered t v (.play p) (halfBytes number ++ [0x00#8, 0x00#8])
          [.patterns, .channels, .jobCounter, .carriers, .outputs, .reports] ∧
        (∀ g, s.gen g = .free → (∀ g', g' < g → s.gen g' ≠ .free) →
          t.chan c = { s.chan c with
            state := .playing, waitTimer := none
            active := some { job with attach := some ⟨g, .opened⟩, clock := .running } } ∧
          t.gen g = .running k 0 true ∧ (∀ g', g' ≠ g → t.gen g' = s.gen g') ∧ t.carb.waitList = s.carb.waitList) ∧
        ((∀ g, s.gen g ≠ .free) →
          t.chan c = { s.chan c with
            state := .carrierWait, active := some job
            waitTimer := if (s.chan c).config.waitLimit = 0x00#8 then none
              else some ((s.chan c).config.waitLimit.toNat * Config.clocksPerMilli) } ∧
          t.carb.gens = s.carb.gens ∧ t.carb.waitList = s.carb.waitList ++ [⟨c, k⟩])) ∧
      ∀ g, s.carrierClass k ≠ none → (s.gen g).cls = some k → (∀ g', (s.gen g').cls = some k → g' = g) →
        t.entry j.pattern = .ready h (x :: steps) (n + 1) ∧ t.rpt = s.rpt.taking (started ++ marked) ∧
        s.Answered t v (.play p) (halfBytes number ++ [0x00#8, 0x00#8])
          [.patterns, .channels, .jobCounter, .carriers, .outputs, .reports] ∧
        t.chan c = { s.chan c with
          state := .playing, waitTimer := none
          active := some (if (s.gen g).phase = 0 then { job with attach := some ⟨g, .opened⟩, clock := .running }
            else { job with attach := some ⟨g, .opening⟩ }) } ∧
        t.gen g = .running k (s.gen g).phase (s.gen g).inHigh ∧ (∀ g', g' ≠ g → t.gen g' = s.gen g') ∧
        t.carb.waitList = s.carb.waitList) ∧
  ∀ (s : State) (v : Via) (p : PlayFields) (c : Chan) (j : Job) (head : Job) (rest : List Job) (a : ArmedHead) (h : Header)
    (x : Step) (steps : List Step) (n : Nat),
    s.Settled → (∀ d, (s.chan d).QueueOk) → s.NumbersOk → s.Executes v (.play p) → p.Spells c j →
    (s.chan c).state = .armed → (s.chan c).active = none → (s.chan c).queue = head :: rest → (s.chan c).queue.length < 4 →
    head.start ≠ .now → (s.chan c).armed = some a → a.number = head.number → s.entry j.pattern = .ready h (x :: steps) n →
    let number := s.allocatedNumber
    let length := x.duration.toNat * h.timeUnit.clocks
    ∃ t, exec (.play v p) s = .next t ∧
      let named := t.entry j.pattern = .ready h (x :: steps) (n + 1)
      t.nextJob = nextNumber number ∧ (∀ q, q ≠ j.pattern → t.entry q = s.entry q) ∧ t.ptab.load = s.ptab.load ∧
      s.KeepsChannelsBut t c ∧
      (j.priority ≤ head.priority → named ∧
        t.chan c = { s.chan c with queue := head :: insertJob { j with number := number } rest } ∧
        s.Answered t v (.play p)
          (halfBytes number ++ [byteOf ((rest.takeWhile fun y => j.priority ≤ y.priority).length + 2), 0x00#8])
          [.patterns, .channels, .jobCounter]) ∧
      (head.priority < j.priority → j.start ≠ .now → named ∧
        t.chan c = { s.chan c with
          queue := { j with number := number } :: head :: rest
          armed := some ⟨number, if j.window = 0#16 then none else some (j.window.toNat * Config.clocksPerMilli), true⟩ } ∧
        s.Answered t v (.play p) (halfBytes number ++ [0x01#8, 0x00#8]) [.patterns, .channels, .jobCounter]) ∧
      (head.priority < j.priority → j.start = .now → (∀ k, x.kind ≠ .carrier k) → named ∧
        t.chan c = { s.chan c with
          state := .playing, queue := head :: rest, armed := none
          active := some ⟨{ j with number := number }, 0, 0x00#8, j.override.getD h.repeats, length, .running, none, none,
            (s.chan c).config.readback && decide (800 ≤ length)⟩ } ∧
        t.rpt = s.rpt.taking
          ((if j.flags.reportStart then
              [⟨.started, s.rpt.partTime, some c, number, byteOf j.pattern.val, 0x00#8⟩] else [])
            ++ if x.mark && j.flags.marks then
              [⟨.mark, s.rpt.partTime, some c, number, 0x00#8, byteOf j.pattern.val⟩] else []) ∧
        s.Answered t v (.play p) (halfBytes number ++ [0x00#8, 0x00#8])
          [.patterns, .channels, .jobCounter, .outputs, .reports])

/-- A PLAY accepted behind an active job (R29): the job is inserted by its priority and waits. Without an effective PREEMPT
nothing else of the channel changes; with a higher priority and PREEMPT, on a PLAYING channel whose job has no fixed outcome, that
job's outcome is fixed as PREEMPTED with a pending stop STEP_END (R30, R68), and the reply says so. In HELD and in CARRIER_WAIT the
preempted job ends PREEMPTED in the same event: a HELD channel stays HELD without an active job, and a waiting channel leaves the wait
list and takes the head decision, which arms it with a SENSE or GO job that finds the queue empty. -/
def Obligations.PlayBehindActiveJob : Prop :=
  (∀ (s : State) (v : Via) (p : PlayFields) (c : Chan) (j : Job) (a : Active) (h : Header) (steps : List Step) (n : Nat),
    s.Settled → (∀ d, (s.chan d).QueueOk) → s.NumbersOk → s.Executes v (.play p) → p.Spells c j →
    (s.chan c).state = .playing ∨ (s.chan c).state = .carrierWait ∨ (s.chan c).state = .held →
    (s.chan c).active = some a → (s.chan c).queue.length < 4 → s.entry j.pattern = .ready h steps n →
    let number := s.allocatedNumber
    let ahead := ((s.chan c).queue.takeWhile fun x => j.priority ≤ x.priority).length
    let preempts := j.flags.preempt = true ∧ a.job.priority < j.priority ∧ a.stop = none
    ∃ t, exec (.play v p) s = .next t ∧
      (¬preempts →
        t.chan c = { s.chan c with queue := insertJob { j with number := number } (s.chan c).queue } ∧
        t.nextJob = nextNumber number ∧ t.entry j.pattern = .ready h steps (n + 1) ∧
        (∀ q, q ≠ j.pattern → t.entry q = s.entry q) ∧ t.ptab.load = s.ptab.load ∧ s.KeepsChannelsBut t c ∧
        s.Answered t v (.play p) (halfBytes number ++ [byteOf (ahead + 1), 0x00#8]) [.patterns, .channels, .jobCounter]) ∧
      (preempts → (s.chan c).state = .playing →
        t.chan c = { s.chan c with
          queue := insertJob { j with number := number } (s.chan c).queue
          active := some { a with stop := some ⟨.stepEnd, .preempted⟩ } } ∧
        t.nextJob = nextNumber number ∧ t.entry j.pattern = .ready h steps (n + 1) ∧
        (∀ q, q ≠ j.pattern → t.entry q = s.entry q) ∧ t.ptab.load = s.ptab.load ∧ s.KeepsChannelsBut t c ∧
        s.Answered t v (.play p) (halfBytes number ++ [byteOf (ahead + 1), 0x01#8]) [.patterns, .channels, .jobCounter])) ∧
  ∀ (s : State) (v : Via) (p : PlayFields) (c : Chan) (j : Job) (a : Active) (h : Header) (steps : List Step) (n : Nat),
    s.Settled → (∀ d, (s.chan d).QueueOk) → s.NumbersOk → s.WaitersOk → s.Executes v (.play p) → p.Spells c j →
    (s.chan c).state = .carrierWait ∨ (s.chan c).state = .held → (s.chan c).active = some a → a.attach = none →
    (s.chan c).queue.length < 4 → s.entry j.pattern = .ready h steps n →
    j.flags.preempt = true → a.job.priority < j.priority → a.stop = none →
    let number := s.allocatedNumber
    let ahead := ((s.chan c).queue.takeWhile fun x => j.priority ≤ x.priority).length
    ∃ t, exec (.play v p) s = .next t ∧
      let entries := ∀ q, t.entry q = (if q = j.pattern then (s.entry q).addRef else s.entry q).less
        (if q = a.job.pattern then 1 else 0)
      t.nextJob = nextNumber number ∧ t.ptab.load = s.ptab.load ∧ s.KeepsChannelsBut t c ∧
      ((s.chan c).state = .held → entries ∧
        t.chan c = { s.chan c with
          queue := insertJob { j with number := number } (s.chan c).queue
          active := none, holdRequest := false, waitTimer := none
          hold := (s.chan c).hold.map fun x => { x with resume := none } } ∧
        t.rpt = s.rpt.taking
          [⟨.ended, s.rpt.partTime, some c, a.job.number, byteOf a.job.pattern.val, 0x03#8⟩] ∧
        s.Answered t v (.play p) (halfBytes number ++ [byteOf (ahead + 1), 0x01#8])
          [.patterns, .channels, .jobCounter, .reports]) ∧
      ((s.chan c).state = .carrierWait → (s.chan c).queue = [] → (s.chan c).armed = none → j.start ≠ .now → entries ∧
        t.chan c = { s.chan c with
          state := .armed, queue := [{ j with number := number }], active := none, holdRequest := false, waitTimer := none
          armed := some ⟨number, if j.window = 0#16 then none else some (j.window.toNat * Config.clocksPerMilli), true⟩ } ∧
        t.carb.gens = s.carb.gens ∧ t.carb.classes = s.carb.classes ∧
        t.carb.waitList = s.carb.waitList.filter (fun w => w.chan ≠ c) ∧
        t.rpt = s.rpt.taking
          [⟨.ended, s.rpt.partTime, some c, a.job.number, byteOf a.job.pattern.val, 0x03#8⟩] ∧
        s.Answered t v (.play p) (halfBytes number ++ [0x01#8, 0x01#8])
          [.patterns, .channels, .jobCounter, .carriers, .outputs, .reports])

/-- A job is inserted after every queued job of equal or higher priority and before every queued job of lower priority, and the
other jobs keep their order among themselves (R26). -/
def Obligations.QueueInsertion : Prop :=
  ∀ (j : Job) (queue : List Job), (queue.Pairwise fun a b => b.priority ≤ a.priority) →
    ((insertJob j queue).Pairwise fun a b => b.priority ≤ a.priority) ∧
    ∃ before behind, queue = before ++ behind ∧ insertJob j queue = before ++ j :: behind ∧
      (∀ x ∈ before, j.priority ≤ x.priority) ∧ ∀ x ∈ behind, x.priority < j.priority

/-- The number allocated to a job is the first, from the counter's value on and stepping from 65535 to 1, that no existing job
holds; it is not 0, and it is found within 41 steps (R25). -/
def Obligations.JobNumberAllocation : Prop :=
  ∀ s : State, (∀ c, (s.chan c).QueueOk) → s.NumbersOk →
    s.allocatedNumber ≠ 0#16 ∧ s.allocatedNumber ∉ s.jobNumbers ∧
    ∃ k, k < 41 ∧ s.allocatedNumber = nextNumber^[k] s.nextJob ∧ ∀ i, i < k → nextNumber^[i] s.nextJob ∈ s.jobNumbers

/-- CANCEL (R41). A queued job is dropped CANCELLED: it leaves the queue, its reference is released and its DROPPED report is made (R40);
behind the head of an ARMED channel, or on a channel that is not ARMED, nothing else of the channel changes, and an ARMED channel that loses
its armed head is IDLE with nothing behind it, and otherwise takes the head decision: a SENSE or GO job behind it is armed with its own
window afresh, and a NOW job behind it, its step 0 a steady one, starts in the same event (R23, R32). The active job's number is refused
BAD_STATE, and a number of no job of the channel NOT_FOUND. -/
def Obligations.CancelDecides : Prop :=
  ∀ (s : State) (v : Via) (channel : Byte) (number : Half) (c : Chan), s.Settled → s.NumbersOk →
    s.Executes v (.cancel channel number) → c.val = channel.toNat → number ≠ 0#16 →
    ∃ t, exec (.cancel v channel number) s = .next t ∧
      (∀ j ∈ (s.chan c).queue, j.number = number →
        let releases := fun q : PatId => if q = j.pattern then 1 else 0
        let report : Report := ⟨.dropped, s.rpt.partTime, some c, number, byteOf j.pattern.val, 0x01#8⟩
        ((s.chan c).state ≠ .armed ∨ (∃ h, (s.chan c).armed = some h ∧ h.number ≠ number) →
          t.chan c = { s.chan c with
            queue := (s.chan c).queue.filter fun x => x.number ≠ number
            armed := (s.chan c).armed.filter fun h => h.number ≠ number } ∧
          s.KeepsChannelsBut t c ∧ s.Releases t releases ∧ t.rpt = s.rpt.taking [report] ∧
          s.Answered t v (.cancel channel number) [] [.patterns, .channels, .reports]) ∧
        ((s.chan c).state = .armed → (∃ h, (s.chan c).armed = some h ∧ h.number = number) → (s.chan c).queue = [j] →
          t.chan c = { s.chan c with state := .idle, queue := [], armed := none } ∧
          s.KeepsChannelsBut t c ∧ s.Releases t releases ∧ t.rpt = s.rpt.taking [report] ∧
          s.Answered t v (.cancel channel number) [] [.patterns, .channels, .reports]) ∧
        ∀ rest, (s.chan c).state = .armed → (∃ h, (s.chan c).armed = some h ∧ h.number = number) →
          (s.chan c).queue = j :: rest → s.SteadyHead rest →
          s.TakesHead t c { s.chan c with armed := none } rest [report] ∧
          s.KeepsChannelsBut t c ∧ s.Releases t releases ∧
          s.Answered t v (.cancel channel number) [] [.patterns, .channels, .outputs, .reports]) ∧
      ((∀ j ∈ (s.chan c).queue, j.number ≠ number) → (∃ a, (s.chan c).active = some a ∧ a.job.number = number) →
        s.Refused t v (.cancel channel number) .badState []) ∧
      ((∀ j ∈ (s.chan c).queue, j.number ≠ number) → (∀ a, (s.chan c).active = some a → a.job.number ≠ number) →
        s.Refused t v (.cancel channel number) .notFound [])

/-- STOP with PASS_END or STEP_END and without flush, on channels none of which waits for a carrier or holds an active job in HELD
(R62): on every named PLAYING channel the pending stop is set, with the outcome STOPPED, or strengthened, with the fixed outcome kept
(R63); no other channel changes, and the reply's mask names the channels whose active job was reached. -/
def Obligations.StopSetsPendingStops : Prop :=
  ∀ (s : State) (v : Via) (mask boundary : Byte) (w : StopWhen), s.Settled → s.Executes v (.stop mask boundary 0x00#8) →
    mask ≠ 0x00#8 → w.Spelled boundary → w ≠ .now →
    (∀ c : Chan, mask.getLsbD c.val = true → (s.chan c).state ≠ .carrierWait ∧
      ((s.chan c).state = .held → (s.chan c).active = none)) →
    ∃ t, exec (.stop v mask boundary 0x00#8) s = .next t ∧
      (∀ c : Chan, t.chan c =
        if mask.getLsbD c.val ∧ (s.chan c).state = .playing then
          { s.chan c with active := (s.chan c).active.map fun a => { a with stop := some (match a.stop with
            | none => ⟨w, .stopped⟩
            | some p => if p.boundary = .passEnd then ⟨w, p.outcome⟩ else p) } }
        else s.chan c) ∧
      s.Answered t v (.stop mask boundary 0x00#8)
        [maskOf fun c => mask.getLsbD c.val && (decide ((s.chan c).state ≠ .off ∧ (s.chan c).state ≠ .safe ∧
          (s.chan c).state ≠ .fault) && (s.chan c).active.isSome), 0x00#8] [.channels, .choices]

/-- STOP NOW with flush on one PLAYING channel at a steady step, or at a carrier step without an attachment (R64, R66): the job ends
at once with its fixed outcome or STOPPED, its ENDED report is made, the queued jobs are dropped FLUSHED from the head on (R42), their
references are released, and the channel is IDLE. STOP without flush on one channel: in CARRIER_WAIT the job ends at once with any when,
its place on the wait list is given up, and with nothing queued the channel is IDLE; an active job of a HELD channel ends at once with any
when and the channel stays HELD without it (R66); STOP NOW becomes the pending stop at an open gate, and at an opening gate it ends the
job at once, and the generator, if the channel was its last user and no cycle boundary is there, is DRAINING (R64, R88). -/
def Obligations.StopNowWithFlush : Prop :=
  (∀ (s : State) (v : Via) (mask : Byte) (c : Chan) (a : Active), s.Settled → s.WaitersOk →
    s.Executes v (.stop mask 0x03#8 0x01#8) → maskChans mask = [c] → (s.chan c).state = .playing →
    (s.chan c).active = some a → a.attach = none →
    ∃ t, exec (.stop v mask 0x03#8 0x01#8) s = .next t ∧
      t.chan c = { s.chan c with
        state := .idle, active := none, queue := [], armed := none, holdRequest := false, waitTimer := none } ∧
      s.KeepsChannelsBut t c ∧ s.Releases t ((s.chan c).naming ·) ∧
      t.rpt = s.rpt.taking
        (⟨.ended, s.rpt.partTime, some c, a.job.number, byteOf a.job.pattern.val,
            match a.stop with | some p => p.outcome.outcome.byte | none => 0x02#8⟩
          :: (s.chan c).queue.map fun j =>
            ⟨.dropped, s.rpt.partTime, some c, j.number, byteOf j.pattern.val, 0x02#8⟩) ∧
      s.Answered t v (.stop mask 0x03#8 0x01#8) [mask, byteOf (s.chan c).queue.length]
        [.patterns, .channels, .outputs, .reports]) ∧
  ∀ (s : State) (v : Via) (mask boundary : Byte) (w : StopWhen) (c : Chan) (a : Active), s.Settled → s.WaitersOk →
    s.Executes v (.stop mask boundary 0x00#8) → w.Spelled boundary → maskChans mask = [c] → (s.chan c).active = some a →
    let ended : Report := ⟨.ended, s.rpt.partTime, some c, a.job.number, byteOf a.job.pattern.val,
      match a.stop with | some p => p.outcome.outcome.byte | none => 0x02#8⟩
    let idle := { s.chan c with
      state := ChState.idle, active := none, queue := [], armed := none, holdRequest := false, waitTimer := none }
    let gives := fun (t : State) (changed : List Block) =>
      s.KeepsChannelsBut t c ∧ s.Answered t v (.stop mask boundary 0x00#8) [mask, 0x00#8] changed
    ∃ t, exec (.stop v mask boundary 0x00#8) s = .next t ∧
      ((s.chan c).state = .carrierWait → a.attach = none → (s.chan c).queue = [] →
        t.chan c = idle ∧ s.Releases t ((s.chan c).naming ·) ∧ t.rpt = s.rpt.taking [ended] ∧
        t.carb.gens = s.carb.gens ∧ t.carb.classes = s.carb.classes ∧
        t.carb.waitList = s.carb.waitList.filter (fun y => y.chan ≠ c) ∧
        gives t [.patterns, .channels, .carriers, .outputs, .reports]) ∧
      ((s.chan c).state = .held → a.attach = none →
        t.chan c = { s.chan c with
          active := none, holdRequest := false, waitTimer := none
          hold := (s.chan c).hold.map fun x => { x with resume := none } } ∧
        s.Releases t (fun q => if q = a.job.pattern then 1 else 0) ∧ t.rpt = s.rpt.taking [ended] ∧
        gives t [.patterns, .channels, .reports]) ∧
      ∀ g, (s.chan c).state = .playing → w = .now →
        (a.attach = some ⟨g, .opened⟩ →
          t.chan c = { s.chan c with
            active := some { a with stop := some ⟨.now, match a.stop with | some p => p.outcome | none => .stopped⟩ } } ∧
          gives t [.channels]) ∧
        (a.attach = some ⟨g, .opening⟩ → (s.chan c).queue = [] → s.users g ≠ [c] ∨ ¬s.AtCycleEnd g →
          t.chan c = idle ∧ s.Releases t ((s.chan c).naming ·) ∧ t.rpt = s.rpt.taking [ended] ∧
          (∀ g', g' ≠ g → t.gen g' = s.gen g') ∧ t.carb.classes = s.carb.classes ∧ t.carb.waitList = s.carb.waitList ∧
          (s.users g ≠ [c] → t.gen g = s.gen g) ∧
          (∀ k phase high, s.users g = [c] → s.gen g = .running k phase high → t.gen g = .draining k phase high) ∧
          gives t [.patterns, .channels, .carriers, .outputs, .reports])

/-- HOLD and RESUME on one channel, which the reply's mask names where they act. HOLD (R70) does nothing in HELD, OFF, SAFE and FAULT.
An IDLE channel is HELD without a resume point, and so is an ARMED one, which keeps its armed head with its window (R39). A PLAYING channel
at a steady step freezes its step clock and is HELD inside that step (R71, R74); with an open gate it receives a hold request and plays on
(R73); at an opening gate it detaches at once, and its generator is DRAINING if it was the last user and no cycle boundary is there (R72,
R88). In CARRIER_WAIT it leaves the wait list and is HELD with its remaining time (R74). A job with a pending stop ends with its fixed
outcome as its channel becomes HELD (R66). A step that is complete at the hold is ended while HELD (R71): the resume point is the entry of
the step that R52 reaches (its step clock not started, log 33), or the job ends and the channel is HELD without it. RESUME (R75) does
nothing on a channel that is not HELD and has no hold request, and withdraws a request. Inside a steady step the clock runs from the
remaining time. At the entry of a step the step is entered with its MARK if due. At a carrier step, there or inside it, the class is asked
for, inside it without a MARK, and the job ends NO_CARRIER_CLASS where it is undefined. Without an active job the channel takes the head
decision: IDLE, armed again or afresh, or a NOW head starts (R39). Not said: the last user's opening gate at a cycle boundary, a queue
behind a NO_CARRIER_CLASS end, and a NOW head whose step 0 is a carrier step. -/
def Obligations.HoldAndResume : Prop :=
  ∀ (s : State) (v : Via) (mask : Byte) (c : Chan), s.Settled → s.WaitersOk → maskChans mask = [c] →
    (s.Executes v (.hold mask) → ∃ t, exec (.hold v mask) s = .next t ∧
      ((s.chan c).state = .idle → (s.chan c).active = none →
        t.chan c = { s.chan c with state := .held, hold := some ⟨.idle, none⟩, holdRequest := false } ∧
        s.KeepsChannelsBut t c ∧ s.Answered t v (.hold mask) [mask] [.channels, .outputs]) ∧
      (∀ a, (s.chan c).state = .playing → (s.chan c).active = some a → a.attach = none → a.stop = none →
        a.remaining ≠ 0 → a.clock = .running →
        t.chan c = { s.chan c with
          state := .held, hold := some ⟨.playing, some .inStep⟩, holdRequest := false, waitTimer := none
          active := some { a with clock := .frozen, sampleDue := a.sampleDue && decide (a.remaining ≠ 80) } } ∧
        s.KeepsChannelsBut t c ∧ s.Answered t v (.hold mask) [mask] [.channels, .outputs]) ∧
      (∀ a g, (s.chan c).state = .playing → (s.chan c).active = some a → a.attach = some ⟨g, .opened⟩ →
        t.chan c = { s.chan c with holdRequest := true } ∧
        s.KeepsChannelsBut t c ∧ s.Answered t v (.hold mask) [mask] [.channels]) ∧
      ((s.chan c).state = .armed → (s.chan c).active = none →
        t.chan c = { s.chan c with state := .held, hold := some ⟨.armed, none⟩, holdRequest := false } ∧
        s.KeepsChannelsBut t c ∧ s.Answered t v (.hold mask) [mask] [.channels]) ∧
      (∀ a, (s.chan c).state = .carrierWait → (s.chan c).active = some a → a.attach = none → a.stop = none →
        a.remaining ≠ 0 → a.clock = .notStarted →
        t.chan c = { s.chan c with
          state := .held, hold := some ⟨.carrierWait, some .inCarrier⟩, holdRequest := false, waitTimer := none
          active := some { a with sampleDue := a.sampleDue && decide (a.remaining ≠ 80) } } ∧
        t.carb.gens = s.carb.gens ∧ t.carb.classes = s.carb.classes ∧
        t.carb.waitList = s.carb.waitList.filter (fun w => w.chan ≠ c) ∧
        s.KeepsChannelsBut t c ∧ s.Answered t v (.hold mask) [mask] [.channels, .carriers]) ∧
      (∀ a g, (s.chan c).state = .playing → (s.chan c).active = some a → a.attach = some ⟨g, .opening⟩ → a.stop = none →
        a.remaining ≠ 0 → a.clock = .notStarted → s.users g ≠ [c] ∨ ¬s.AtCycleEnd g →
        t.chan c = { s.chan c with
          state := .held, hold := some ⟨.playing, some .inCarrier⟩, holdRequest := false, waitTimer := none
          active := some { a with attach := none, sampleDue := a.sampleDue && decide (a.remaining ≠ 80) } } ∧
        (∀ g', g' ≠ g → t.gen g' = s.gen g') ∧ t.carb.classes = s.carb.classes ∧ t.carb.waitList = s.carb.waitList ∧
        (s.users g ≠ [c] → t.gen g = s.gen g) ∧
        (∀ k phase high, s.users g = [c] → s.gen g = .running k phase high → t.gen g = .draining k phase high) ∧
        s.KeepsChannelsBut t c ∧ s.Answered t v (.hold mask) [mask] [.channels, .carriers, .outputs]) ∧
      ((s.chan c).state = .held ∨ (s.chan c).state = .off ∨ (s.chan c).state = .safe ∨ (s.chan c).state = .fault →
        s.Answered t v (.hold mask) [0x00#8] []) ∧
      ∀ a, (s.chan c).state = .playing → (s.chan c).active = some a →
        let ends := fun (o : Byte) (changed : List Block) =>
          t.chan c = { s.chan c with
            state := .held, hold := some ⟨.playing, none⟩, active := none, holdRequest := false, waitTimer := none } ∧
          s.Releases t (fun q => if q = a.job.pattern then 1 else 0) ∧
          t.rpt = s.rpt.taking (if o ≠ 0x01#8 ∨ a.job.flags.reportEnd = true then
            [⟨.ended, s.rpt.partTime, some c, a.job.number, byteOf a.job.pattern.val, o⟩] else []) ∧
          s.KeepsChannelsBut t c ∧ s.Answered t v (.hold mask) [mask] changed
        let stopped := fun p : PendingStop => (match p.outcome with | .stopped => 0x02#8 | .preempted => 0x03#8 : Byte)
        (∀ p, a.attach = none → a.stop = some p → ends (stopped p) [.patterns, .channels, .outputs, .reports]) ∧
        (∀ p g, a.attach = some ⟨g, .opening⟩ → a.stop = some p → s.users g ≠ [c] ∨ ¬s.AtCycleEnd g →
          ends (stopped p) [.patterns, .channels, .carriers, .outputs, .reports] ∧
          (∀ g', g' ≠ g → t.gen g' = s.gen g') ∧ t.carb.classes = s.carb.classes ∧ t.carb.waitList = s.carb.waitList ∧
          (s.users g ≠ [c] → t.gen g = s.gen g) ∧
          (∀ k phase high, s.users g = [c] → s.gen g = .running k phase high → t.gen g = .draining k phase high)) ∧
        ∀ h steps n, a.attach = none → a.stop = none → a.remaining = 0 → s.entry a.job.pattern = .ready h steps n →
          let pass := if a.passes = 0xFF#8 then 0xFF#8 else a.passes + 1#8
          let last := h.count ≤ a.stepIndex + 1 ∧ a.repeats ≠ 0x00#8 ∧ a.repeats.toNat ≤ pass.toNat
          let awaits := fun b : Active =>
            t.chan c = { s.chan c with
              state := .held, hold := some ⟨.playing, some .atEntry⟩, holdRequest := false, waitTimer := none
              active := some { b with remaining := 0, clock := .notStarted, sampleDue := false } } ∧
            s.KeepsChannelsBut t c
          (a.stepIndex + 1 < h.count → awaits { a with stepIndex := a.stepIndex + 1 } ∧
            s.Answered t v (.hold mask) [mask] [.channels, .outputs]) ∧
          (h.count ≤ a.stepIndex + 1 → ¬last → awaits { a with stepIndex := h.loopStart, passes := pass } ∧
            s.Answered t v (.hold mask) [mask] [.channels, .outputs]) ∧
          (last → h.final = .finish → ends 0x01#8 [.patterns, .channels, .outputs, .reports]) ∧
          ∀ q, last → h.final = .chain q →
            ((s.entry q).isReady = false → ends 0x06#8 [.patterns, .channels, .outputs, .reports]) ∧
            ∀ h' more m, q ≠ a.job.pattern → s.entry q = .ready h' more m →
              awaits { a with
                job := { a.job with pattern := q }, stepIndex := 0, passes := 0x00#8, repeats := h'.repeats } ∧
              t.entry q = .ready h' more (m + 1) ∧ t.entry a.job.pattern = .ready h steps (n - 1) ∧
              (∀ p, p ≠ q → p ≠ a.job.pattern → t.entry p = s.entry p) ∧ t.ptab.load = s.ptab.load ∧
              s.Answered t v (.hold mask) [mask] [.patterns, .channels, .outputs]) ∧
    (s.Executes v (.resume mask) → ∃ t, exec (.resume v mask) s = .next t ∧
      (∀ a f, (s.chan c).state = .held → (s.chan c).hold = some ⟨f, some .inStep⟩ → (s.chan c).active = some a →
        t.chan c = { s.chan c with state := .playing, hold := none, active := some { a with clock := .running } } ∧
        s.KeepsChannelsBut t c ∧ s.Answered t v (.resume mask) [mask] [.channels, .outputs]) ∧
      (∀ f, (s.chan c).state = .held → (s.chan c).hold = some ⟨f, none⟩ → (s.chan c).queue = [] →
        t.chan c = { s.chan c with state := .idle, hold := none, armed := none } ∧
        s.KeepsChannelsBut t c ∧ s.Answered t v (.resume mask) [mask] [.channels, .outputs]) ∧
      (∀ f, (s.chan c).state = .held → (s.chan c).hold = some ⟨f, none⟩ → s.SteadyHead (s.chan c).queue →
        s.TakesHead t c { s.chan c with hold := none } (s.chan c).queue [] ∧
        s.KeepsChannelsBut t c ∧ s.Answered t v (.resume mask) [mask] [.channels, .outputs, .reports]) ∧
      ((s.chan c).state ≠ .held → ((s.chan c).state = .playing → (s.chan c).holdRequest = false) →
        s.Answered t v (.resume mask) [0x00#8] []) ∧
      ((s.chan c).state = .playing → (s.chan c).holdRequest = true →
        t.chan c = { s.chan c with holdRequest := false } ∧
        s.KeepsChannelsBut t c ∧ s.Answered t v (.resume mask) [mask] [.channels]) ∧
      ∀ a f h steps n x, (s.chan c).state = .held → (s.chan c).active = some a → a.attach = none →
        s.entry a.job.pattern = .ready h steps n → steps[a.stepIndex]? = some x →
        ((s.chan c).hold = some ⟨f, some .atEntry⟩ → (∀ k, x.kind ≠ .carrier k) →
          let length := x.duration.toNat * h.timeUnit.clocks
          t.chan c = { s.chan c with
            state := .playing, hold := none
            active := some { a with
              remaining := length, clock := .running
              sampleDue := (s.chan c).config.readback && decide (800 ≤ length) } } ∧
          t.rpt = s.rpt.taking (if x.mark && a.job.flags.marks then
            [⟨.mark, s.rpt.partTime, some c, a.job.number, byteOf a.stepIndex, byteOf a.job.pattern.val⟩] else []) ∧
          s.KeepsChannelsBut t c ∧ s.Answered t v (.resume mask) [mask] [.channels, .outputs, .reports]) ∧
        ∀ k, x.kind = .carrier k →
          ((s.chan c).hold = some ⟨f, some .inCarrier⟩ ∨ (s.chan c).hold = some ⟨f, some .atEntry⟩ →
            s.carrierClass k = none → (s.chan c).queue = [] →
            t.chan c = { s.chan c with
              state := .idle, hold := none, active := none, armed := none, holdRequest := false, waitTimer := none } ∧
            s.Releases t ((s.chan c).naming ·) ∧
            t.rpt = s.rpt.taking
              [⟨.ended, s.rpt.partTime, some c, a.job.number, byteOf a.job.pattern.val, 0x05#8⟩] ∧
            s.KeepsChannelsBut t c ∧ s.Answered t v (.resume mask) [mask] [.patterns, .channels, .reports]) ∧
          ((s.chan c).hold = some ⟨f, some .inCarrier⟩ → s.carrierClass k ≠ none →
            s.Asks t c k { s.chan c with hold := none } a ∧
            s.KeepsChannelsBut t c ∧ s.Answered t v (.resume mask) [mask] [.channels, .carriers, .outputs]) ∧
          ((s.chan c).hold = some ⟨f, some .atEntry⟩ → s.carrierClass k ≠ none → a.stop = none →
            s.Asks t c k { s.chan c with hold := none }
              { a with remaining := x.duration.toNat * h.timeUnit.clocks, clock := .notStarted, sampleDue := false } ∧
            t.rpt = s.rpt.taking (if x.mark && a.job.flags.marks then
              [⟨.mark, s.rpt.partTime, some c, a.job.number, byteOf a.stepIndex, byteOf a.job.pattern.val⟩] else []) ∧
            s.KeepsChannelsBut t c ∧ s.Answered t v (.resume mask) [mask] [.channels, .carriers, .outputs, .reports]))

/-- GO (R34). The GO head of the one ARMED channel named starts: it leaves the queue, becomes the active job and enters its step 0, a
steady one here (R31, R50), with its STARTED and MARK reports; the reply's mask names the channel. A GO that names no ARMED channel
with a GO head starts nothing, is not remembered, and is answered with an empty mask. -/
def Obligations.GoStartsHead : Prop :=
  ∀ (s : State) (v : Via) (mask : Byte), s.Settled → s.Executes v (.go mask) → mask ≠ 0x00#8 →
    ∃ t, exec (.go v mask) s = .next t ∧
      ((∀ c : Chan, mask.getLsbD c.val = true → (s.chan c).state ≠ .armed ∨
          (s.chan c).queue.head?.map Job.start ≠ some .go) →
        s.Answered t v (.go mask) [0x00#8] []) ∧
      (∀ (c : Chan) (j : Job) (rest : List Job) (h : Header) (x : Step) (steps : List Step) (n : Nat),
        maskChans mask = [c] → (s.chan c).state = .armed → (s.chan c).active = none → (s.chan c).queue = j :: rest →
        j.start = .go → s.entry j.pattern = .ready h (x :: steps) n → (∀ k, x.kind ≠ .carrier k) →
        let length := x.duration.toNat * h.timeUnit.clocks
        t.chan c = { s.chan c with
          state := .playing, queue := rest, armed := none
          active := some ⟨j, 0, 0x00#8, j.override.getD h.repeats, length, .running, none, none,
            (s.chan c).config.readback && decide (800 ≤ length)⟩ } ∧
        s.KeepsChannelsBut t c ∧
        t.rpt = s.rpt.taking
          ((if j.flags.reportStart then
              [⟨.started, s.rpt.partTime, some c, j.number, byteOf j.pattern.val, 0x02#8⟩] else [])
            ++ if x.mark && j.flags.marks then
              [⟨.mark, s.rpt.partTime, some c, j.number, 0x00#8, byteOf j.pattern.val⟩] else []) ∧
        s.Answered t v (.go mask) [mask] [.channels, .outputs, .reports])

/-- TRIGGER_WINDOW_EXPIRY (R36): with no time left on the armed head's window the head is dropped TRIGGER_TIMEOUT with its DROPPED
report, and the channel takes the head decision: with nothing behind it the channel is IDLE, a SENSE or GO job behind it arms the
channel with its own window afresh, and a NOW job behind it, its step 0 a steady one, starts in the same event (R32). With time left
nothing has expired and nothing changes (read from the rule, log 7). -/
def Obligations.TriggerWindowExpires : Prop :=
  ∀ (s : State) (c : Chan) (j : Job) (rest : List Job) (n : Nat) (fresh : Bool), s.Settled → (s.chan c).state = .armed →
    (s.chan c).queue = j :: rest → (s.chan c).armed = some ⟨j.number, some n, fresh⟩ →
    ∃ t, exec (.triggerWindowExpiry c) s = .next t ∧
      (n ≠ 0 → t = s) ∧
      (n = 0 → s.SteadyHead rest →
        s.TakesHead t c { s.chan c with armed := none } rest
          [⟨.dropped, s.rpt.partTime, some c, j.number, byteOf j.pattern.val, 0x03#8⟩] ∧
        s.KeepsChannelsBut t c ∧ s.Releases t (fun q => if q = j.pattern then 1 else 0) ∧
        s.KeepsAllBut t [.patterns, .channels, .outputs, .reports] ∧ t.Settled)

/-- STEP_END within a job (R51, R52): when the step clock of a steady step has run out, and no stop ends the job there, the job goes
on with the next step of its pattern, with the loop start after a completed pass that is not the last (R53), or with step 0 of the
READY chain target under the target's header after the last (R54), a steady step in each case; that step is entered at once (R50) with
its MARK if due (R59). With time left the step has not ended and nothing changes (read from the
rule, log 7). -/
def Obligations.StepEndGoesOn : Prop :=
  ∀ (s : State) (c : Chan) (a : Active) (h : Header) (steps : List Step) (n : Nat), s.Settled → (s.chan c).state = .playing →
    (s.chan c).active = some a → a.attach = none → a.clock = .running → s.entry a.job.pattern = .ready h steps n →
    ∃ t, exec (.stepEnd c) s = .next t ∧
      (a.remaining ≠ 0 → t = s) ∧
      let pass := if a.passes = 0xFF#8 then 0xFF#8 else a.passes + 1#8
      let last := a.repeats ≠ 0x00#8 ∧ a.repeats.toNat ≤ pass.toNat
      let enters := fun (b : Active) (u : TimeUnit) (y : Step) =>
        t.chan c = { s.chan c with
          active := some { b with
            remaining := y.duration.toNat * u.clocks
            sampleDue := (s.chan c).config.readback && decide (800 ≤ y.duration.toNat * u.clocks) } } ∧
        s.KeepsChannelsBut t c ∧
        t.rpt = s.rpt.taking (if y.mark && b.job.flags.marks then
          [⟨.mark, s.rpt.partTime, some c, b.job.number, byteOf b.stepIndex, byteOf b.job.pattern.val⟩] else []) ∧
        s.KeepsAllBut t [.patterns, .channels, .outputs, .reports] ∧ t.Settled
      (∀ y, a.remaining = 0 → (∀ p, a.stop = some p → p.boundary = .passEnd) → a.stepIndex + 1 < h.count →
        steps[a.stepIndex + 1]? = some y → (∀ k, y.kind ≠ .carrier k) →
        enters { a with stepIndex := a.stepIndex + 1 } h.timeUnit y ∧ t.ptab = s.ptab) ∧
      (∀ y, a.remaining = 0 → a.stop = none → h.count ≤ a.stepIndex + 1 → ¬last →
        steps[h.loopStart]? = some y → (∀ k, y.kind ≠ .carrier k) →
        enters { a with stepIndex := h.loopStart, passes := pass } h.timeUnit y ∧ t.ptab = s.ptab) ∧
      ∀ q h' y more m, a.remaining = 0 → a.stop = none → h.count ≤ a.stepIndex + 1 → last → h.final = .chain q →
        q ≠ a.job.pattern → s.entry q = .ready h' (y :: more) m → (∀ k, y.kind ≠ .carrier k) →
        enters { a with
          job := { a.job with pattern := q }, stepIndex := 0, passes := 0x00#8, repeats := h'.repeats } h'.timeUnit y ∧
        t.entry q = .ready h' (y :: more) (m + 1) ∧ t.entry a.job.pattern = .ready h steps (n - 1) ∧
        (∀ p, p ≠ q → p ≠ a.job.pattern → t.entry p = s.entry p) ∧ t.ptab.load = s.ptab.load

/-- STEP_END that ends the job (R52, R60): at a pending STEP_END or NOW, or at the end of the pass with a pending PASS_END, the job
ends with its fixed outcome; at the end of the last pass it ends COMPLETED with END, and CHAIN_MISSING with a chain target that is not
READY. Its reference is released, its ENDED report is made for every outcome but COMPLETED, and for COMPLETED with REPORT_END (R61), and
the channel takes the head decision in the same event (R23): it is IDLE with nothing queued, armed with a SENSE or GO head, and a NOW head,
its step 0 a steady one, starts at once (R32). -/
def Obligations.StepEndEndsJob : Prop :=
  ∀ (s : State) (c : Chan) (a : Active) (h : Header) (steps : List Step) (n : Nat) (o : Byte), s.Settled → s.WaitersOk →
    (s.chan c).state = .playing → (s.chan c).active = some a → a.attach = none → a.clock = .running → a.remaining = 0 →
    s.SteadyHead (s.chan c).queue → s.entry a.job.pattern = .ready h steps n →
    let pass := if a.passes = 0xFF#8 then 0xFF#8 else a.passes + 1#8
    let last := h.count ≤ a.stepIndex + 1 ∧ a.repeats ≠ 0x00#8 ∧ a.repeats.toNat ≤ pass.toNat
    ((∃ p, a.stop = some p ∧ (p.boundary ≠ .passEnd ∨ h.count ≤ a.stepIndex + 1) ∧
        o = match p.outcome with | .stopped => 0x02#8 | .preempted => 0x03#8) ∨
      (a.stop = none ∧ last ∧ h.final = .finish ∧ o = 0x01#8) ∨
      (a.stop = none ∧ last ∧ o = 0x06#8 ∧ ∃ q, h.final = .chain q ∧ (s.entry q).isReady = false)) →
    ∃ t, exec (.stepEnd c) s = .next t ∧
      s.TakesHead t c { s.chan c with active := none, holdRequest := false, waitTimer := none } (s.chan c).queue
        (if o ≠ 0x01#8 ∨ a.job.flags.reportEnd = true then
          [⟨.ended, s.rpt.partTime, some c, a.job.number, byteOf a.job.pattern.val, o⟩] else []) ∧
      s.KeepsChannelsBut t c ∧ s.Releases t (fun q => if q = a.job.pattern then 1 else 0) ∧
      s.KeepsAllBut t [.patterns, .channels, .outputs, .reports] ∧ t.Settled

/-! ### The output lines (chapter 5) -/

/-- CH_CONFIG with valid fields (R99): on an OFF channel the record is replaced whole by the command's fields, and nothing else
changes; in any other state the command is refused BAD_STATE. -/
def Obligations.ChConfigDecides : Prop :=
  ∀ (s : State) (v : Via) (p : ConfigFields) (c : Chan) (activeLow openDrain restActive readback onLease : Bool)
    (sf : SafeLevel), s.Settled → s.Executes v (.chConfig p) → c.val = p.channel.toNat → flag? p.polarity = some activeLow →
    flag? p.drive = some openDrain → flag? p.rest = some restActive → safeLevel? p.safe = some sf →
    flag? p.readback = some readback → flag? p.safeOnLease = some onLease → p.waitLimit.toNat ≤ 255 →
    ∃ t, exec (.chConfig v p) s = .next t ∧
      ((s.chan c).state ≠ .off → s.Refused t v (.chConfig p) .badState []) ∧
      ((s.chan c).state = .off →
        t.chan c = { s.chan c with
          config := ⟨activeLow, openDrain, restActive, sf, readback, onLease, byteOf p.waitLimit.toNat⟩ } ∧
        s.KeepsChannelsBut t c ∧ s.Answered t v (.chConfig p) [] [.channels])

/-- CH_ENABLE and CLEAR_FAULT (R102, R108): each named channel that is OFF, or in FAULT, enters SAFE if the lease is EXPIRED and its
safe-on-lease is on, and IDLE otherwise; every other channel is as it was, and the reply's mask names the channels that left. -/
def Obligations.EnableAndClearFault : Prop :=
  ∀ (s : State) (v : Via) (mask : Byte), s.Settled → mask ≠ 0x00#8 →
    let enters := fun (ch : Channel) =>
      { ch with state := if s.lease.state = .expired ∧ ch.config.safeOnLease = true then .safe else .idle }
    (s.Executes v (.chEnable mask) → ∃ t, exec (.chEnable v mask) s = .next t ∧
      (∀ c : Chan, t.chan c = if mask.getLsbD c.val ∧ (s.chan c).state = .off then enters (s.chan c) else s.chan c) ∧
      s.Answered t v (.chEnable mask) [maskOf fun c => mask.getLsbD c.val && decide ((s.chan c).state = .off)]
        [.channels, .outputs]) ∧
    (s.Executes v (.clearFault mask) → ∃ t, exec (.clearFault v mask) s = .next t ∧
      (∀ c : Chan, t.chan c = if mask.getLsbD c.val ∧ (s.chan c).state = .fault then enters (s.chan c) else s.chan c) ∧
      s.Answered t v (.clearFault mask) [maskOf fun c => mask.getLsbD c.val && decide ((s.chan c).state = .fault)]
        [.channels, .outputs])

/-- CH_DISABLE. Without force (R103) it is refused BAD_STATE if any named channel has an active or a queued job, and otherwise each
named channel in an enabled state is OFF with its hold context gone. With force (R104) every named channel in an enabled state is OFF,
whatever it held; a channel not named, or OFF, is as it was, or was waiting and has been granted a generator that a named channel left
(R90, R93): the gates of the named channels close at once, and a generator that loses its last user by it is DRAINING, or at a cycle
boundary FREE or granted (R88; what a boundary is at a first cycle start is log 8, that the named channels' claims are settled together is
log 31). Of each channel the ENDED report of its active job, DISABLED, comes first, then the DROPPED reports of its queue from the head
on, and its references are released. A channel that is OFF has its line released, and the reply's mask names the channels taken to
OFF. -/
def Obligations.DisableDecides : Prop :=
  ∀ (s : State) (v : Via) (mask : Byte), s.Settled → mask ≠ 0x00#8 →
    let off := fun (ch : Channel) => (⟨.off, ch.config, none, [], none, none, false, none⟩ : Channel)
    let taken := maskOf fun c => mask.getLsbD c.val && decide ((s.chan c).state ≠ .off)
    let busy := ∃ c : Chan, mask.getLsbD c.val = true ∧ ((s.chan c).active ≠ none ∨ (s.chan c).queue ≠ [])
    (s.Executes v (.chDisable mask 0x00#8) → ∃ t, exec (.chDisable v mask 0x00#8) s = .next t ∧
      (busy → s.Refused t v (.chDisable mask 0x00#8) .badState []) ∧
      (¬busy →
        (∀ c : Chan, t.chan c =
          if mask.getLsbD c.val ∧ (s.chan c).state ≠ .off then off (s.chan c) else s.chan c) ∧
        (∀ c : Chan, mask.getLsbD c.val = true → t.outs[c] = .released) ∧
        s.Answered t v (.chDisable mask 0x00#8) [taken] [.channels, .outputs])) ∧
    (s.Executes v (.chDisable mask 0x01#8) → ∃ t, exec (.chDisableForce v mask) s = .next t ∧
      (∀ c : Chan, mask.getLsbD c.val = true → (s.chan c).state ≠ .off →
        t.chan c = off (s.chan c) ∧ t.outs[c] = .released) ∧
      let goes := fun c : Chan => mask.getLsbD c.val && decide ((s.chan c).state ≠ .off)
      s.ForceClosed t goes ∧
      s.Releases t (fun q => (((List.finRange 8).filter goes).map fun c => (s.chan c).naming q).sum) ∧
      s.rpt.Merges t.rpt (fun c => if goes c then s.leavingReports c 0x09#8 0x06#8 else []) [] ∧
      s.Answered t v (.chDisable mask 0x01#8) [taken]
        [.patterns, .channels, .carriers, .outputs, .reports, .choices])

/-- The driven state that each logical level gives through polarity and drive, with OPEN_DRAIN releasing a level that maps to high
(R101), and what a settled state's lines are driven to in each channel situation (R100). -/
def Obligations.LinesFollowTheChannels : Prop :=
  (∀ cfg : LineConfig,
    cfg.drive .active = (match cfg.activeLow, cfg.openDrain with
      | false, false => .high | false, true => .released | true, _ => .low) ∧
    cfg.drive .inactive = (match cfg.activeLow, cfg.openDrain with
      | false, _ => .low | true, false => .high | true, true => .released) ∧
    cfg.drive .released = .released) ∧
  ∀ (s : State) (c : Chan), s.Settled →
    let cfg := (s.chan c).config
    let drives := fun x : Level => s.outs[c] = cfg.drive x
    let rest := if cfg.restActive then Level.active else Level.inactive
    ((s.chan c).state = .off → s.outs[c] = .released) ∧
    ((s.chan c).state = .idle ∨ (s.chan c).state = .armed ∨ (s.chan c).state = .carrierWait ∨ (s.chan c).state = .held →
      drives rest) ∧
    ((s.chan c).state = .safe ∨ (s.chan c).state = .fault →
      drives (match cfg.safeLevel with | .released => .released | .inactive => .inactive | .active => .active)) ∧
    ∀ a h steps n y, (s.chan c).state = .playing → (s.chan c).active = some a → s.entry a.job.pattern = .ready h steps n →
      steps[a.stepIndex]? = some y →
      (a.attach = none → y.kind = .active → drives .active) ∧
      (a.attach = none → y.kind = .inactive → drives .inactive) ∧
      (a.attach = none → y.kind = .rest → drives rest) ∧
      (∀ g, a.attach = some ⟨g, .opening⟩ → drives .inactive) ∧
      (∀ g, a.attach = some ⟨g, .opened⟩ → drives (if (s.gen g).inHigh then .active else .inactive))

/-- READBACK_SAMPLE at its moment, 10 µs before the end of a sampled steady step (R105, R107). Agreement between the observed level
and the one that the driven state calls for has no effect but that the step's one sample is taken. A mismatch puts the channel into
FAULT: its active job ends LINE_FAULT, with both levels in the ENDED report, its queued jobs are dropped LINE_FAULT after it, and its
references are released. At any other moment no sample is taken and nothing changes (read from the rule, log 7). -/
def Obligations.ReadbackSample : Prop :=
  ∀ (s : State) (c : Chan) (observed : Bool) (a : Active), s.Settled → s.WaitersOk → (s.chan c).state = .playing →
    (s.chan c).active = some a → a.attach = none → a.clock = .running → a.sampleDue = true →
    let expected := decide (s.outs[c] ≠ .low)
    ∃ t, exec (.readbackSample c observed) s = .next t ∧
      (a.remaining ≠ 80 → t = s) ∧
      (a.remaining = 80 → observed = expected →
        t.chan c = { s.chan c with active := some { a with sampleDue := false } } ∧ s.KeepsChannelsBut t c ∧
        s.KeepsAllBut t [.channels] ∧ t.Settled) ∧
      (a.remaining = 80 → observed ≠ expected →
        t.chan c = ⟨.fault, (s.chan c).config, none, [], none, none, false, none⟩ ∧ s.KeepsChannelsBut t c ∧
        s.Releases t ((s.chan c).naming ·) ∧
        t.rpt = s.rpt.taking
          (⟨.ended, s.rpt.partTime, some c, a.job.number, byteOf a.job.pattern.val,
              if expected then 0x27#8 else 0x17#8⟩
            :: (s.chan c).queue.map fun j =>
              ⟨.dropped, s.rpt.partTime, some c, j.number, byteOf j.pattern.val, 0x04#8⟩) ∧
        s.KeepsAllBut t [.patterns, .channels, .outputs, .reports] ∧ t.Settled)

/-- LINES, CH_STATUS and CAR_STATUS change nothing but LINK, in every state (R46, R95, R109). LINES gives the driven state and the sensed
level of each output line and the raw and filtered level of each sense line; CH_STATUS gives a channel's record in the layout of R175;
CAR_STATUS gives the class table, or the generators and the wait list, in the layout of R176. The sensed levels, the rounding of times,
the phase at a due cycle end and a timer that stands at 0 are as log 3, log 4, log 9 and log 28 say. -/
def Obligations.ReportingCommands : Prop :=
  ∀ (s : State) (v : Via) (channel : Byte) (c : Chan), s.Settled → c.val = channel.toNat →
    let millis := fun n : Nat => (n + 7999) / 8000
    (s.Executes v .lines → ∃ t, exec (.lines v) s = .next t ∧
      s.Answered t v .lines
        (((List.finRange 8).flatMap fun d : Chan =>
            [match s.outs[d] with | .low => 0x00#8 | .high => 0x01#8 | .released => 0x02#8,
              flagByte ((Config.outPins s.clock (s.outs.toList.map Driven.code)).getLsbD d.val)])
          ++ (List.finRange 8).flatMap fun l : Line =>
            [flagByte (s.senseLine l).raw, flagByte (s.senseLine l).filtered]) []) ∧
    (s.Executes v (.chStatus channel) → ∃ t, exec (.chStatus v channel) s = .next t ∧
      let ch := s.chan c
      let state := match ch.state with
        | .off => 0 | .idle => 1 | .armed => 2 | .playing => 3 | .carrierWait => 4 | .held => 5 | .safe => 6 | .fault => 7
      let heldFrom := match ch.hold with
        | none => 0
        | some x => match x.heldFrom with | .idle => 1 | .armed => 2 | .playing => 3 | .carrierWait => 4
      let safe := match ch.config.safeLevel with | .released => 0 | .inactive => 1 | .active => 2
      let place := fun j : Job => byteOf (j.priority.val * 32 + j.pattern.val)
      s.Answered t v (.chStatus channel)
        ([byteOf (state + 16 * heldFrom),
          byteOf (ch.config.activeLow.toNat + 2 * ch.config.openDrain.toNat + 4 * ch.config.restActive.toNat
            + 8 * ch.config.readback.toNat + 16 * ch.config.safeOnLease.toNat + 32 * safe),
          ch.config.waitLimit, byteOf ((if ch.active.isSome then 16 else 0) + ch.queue.length)]
        ++ natBytes2 (match ch.armed with
          | some ⟨_, some n, _⟩ => millis n
          | _ => 0)
        ++ (match ch.active with
          | none => []
          | some a =>
            halfBytes a.job.number ++ [place a.job,
              byteOf (a.job.flags.preempt.toNat + 2 * a.job.flags.reportStart.toNat + 4 * a.job.flags.reportEnd.toNat
                + 8 * a.job.flags.marks.toNat),
              byteOf a.stepIndex, a.passes,
              byteOf ((match a.stop with
                | none => 0
                | some p => (match p.boundary with | .passEnd => 1 | .stepEnd => 2 | .now => 3)
                    + 16 * match p.outcome with | .stopped => 2 | .preempted => 3) + 4 * ch.holdRequest.toNat),
              byteOf (match a.attach with
                | none => 0 | some ⟨g, .opening⟩ => 16 + g.val | some ⟨g, .opened⟩ => 32 + g.val)]
            ++ wordBytes (BitVec.ofNat 32 (a.remaining / 8
              + if a.remaining % 8 ≠ 0 ∧ Config.roundMicrosUp a.remaining = true then 1 else 0))
            ++ [byteOf (match ch.waitTimer with | some n => millis n | none => 0)])
        ++ ch.queue.flatMap fun j => halfBytes j.number ++ [place j,
            byteOf ((match j.start with
              | .now => 0
              | .go => 1
              | .sense l e => 128 + 8 * (match e with | .rise => 1 | .fall => 2 | .either => 3) + l.val)
              + if j.override.isSome then 64 else 0)]
          ++ halfBytes j.window ++ [match j.override with | some r => r | none => 0x00#8]) []) ∧
    (s.Executes v (.carStatus 0x00#8) → ∃ t, exec (.carStatus v 0x00#8) s = .next t ∧
      s.Answered t v (.carStatus 0x00#8)
        (0x00#8 :: (((List.finRange 3).flatMap fun g : GenId =>
            [match s.gen g with | .free => 0x00#8 | .running _ _ _ => 0x01#8 | .draining _ _ _ => 0x02#8,
              match (s.gen g).cls with | some k => byteOf k.val | none => 0xFF#8,
              byteOf ((List.finRange 8).countP fun d : Chan => decide (((s.chan d).attachment.map Attachment.gen) = some g)),
              maskOf fun d => decide ((s.chan d).attachment = some ⟨g, .opened⟩),
              maskOf fun d => decide ((s.chan d).attachment = some ⟨g, .opening⟩)]
            ++ natBytes2 (match (s.gen g).cls with
              | none => 0
              | some k => if (match s.carrierClass k with | some x => x.period | none => 0) ≤ (s.gen g).phase then 0
                else (s.gen g).phase))
          ++ byteOf s.carb.waitList.length :: s.carb.waitList.flatMap fun w =>
            [byteOf w.chan.val, byteOf w.cls.val,
              byteOf (match (s.chan w.chan).waitTimer with | some n => millis n | none => 0)])) []) ∧
    (s.Executes v (.carStatus 0x01#8) → ∃ t, exec (.carStatus v 0x01#8) s = .next t ∧
      s.Answered t v (.carStatus 0x01#8)
        (0x01#8 :: (List.finRange 8).flatMap fun k : Cls => match s.carrierClass k with
          | some x => 0x01#8 :: (natBytes2 x.period ++ natBytes2 x.high)
          | none => [0x00#8, 0x00#8, 0x00#8, 0x00#8, 0x00#8]) [])

/-! ### The sense unit (chapter 6) -/

/-- SENSE_SAMPLE at its moment on the grid (R112, R113, R115, R116): every line's raw level is the sampled one; an equal level clears the
progress; a differing level counts, and at F + 1 samples in a row the filtered level takes it and an edge is produced. With no channel
ARMED no channel changes, and RPT takes one SENSE report for every edge that its line's selection includes, the reports of several lines
in some order (R128), each with one sequence number; without such an edge RPT is as it was. Between two moments of the grid nothing is
sampled and nothing changes (read from the rules, log 7). -/
def Obligations.SenseSample : Prop :=
  ∀ (s : State) (levels : BitVec 8), s.Settled → ∃ t, exec (.senseSample levels) s = .next t ∧
    (s.sense.grid < 800 → t = s) ∧
    (800 ≤ s.sense.grid →
      t.sense.grid = 0 ∧
      (∀ l : Line,
        let x := s.senseLine l
        let level := levels.getLsbD l.val
        (level = x.filtered → t.senseLine l = { x with raw := level, progress := 0 }) ∧
        (level ≠ x.filtered → x.progress + 1 < x.filter.toNat + 1 →
          t.senseLine l = { x with raw := level, progress := x.progress + 1 }) ∧
        (level ≠ x.filtered → x.filter.toNat + 1 ≤ x.progress + 1 →
          t.senseLine l = { x with raw := level, filtered := level, progress := 0 })) ∧
      ((∀ c, (s.chan c).state ≠ .armed) →
        s.KeepsAllBut t [.sense, .reports, .choices] ∧ t.Settled ∧
        let reported := (List.finRange 8).filter fun l : Line =>
          decide (levels.getLsbD l.val ≠ (s.senseLine l).filtered)
            && decide ((s.senseLine l).filter.toNat ≤ (s.senseLine l).progress)
            && (match (s.senseLine l).selection with
              | .none => false | .rise => levels.getLsbD l.val | .fall => !levels.getLsbD l.val | .both => true)
        t.rpt.nextSequence = s.rpt.nextSequence + byteOf reported.length ∧
        let report := fun l : Line => (⟨.sense, s.rpt.partTime, some l, 0#16,
          if levels.getLsbD l.val then 0x01#8 else 0x02#8, if levels.getLsbD l.val then 0x01#8 else 0x00#8⟩ : Report)
        (∀ l, reported = [l] → t.rpt = s.rpt.taking [report l]) ∧
        (reported = [] → t.rpt = s.rpt) ∧
        ∃ rs : List Report, rs.Perm (reported.map report) ∧ t.rpt = s.rpt.taking rs))

/-- An edge starts the head of a channel that is ARMED with a matching SENSE head since before the sample (R33, R115): the sampled
line has filter time 0, no line's edges are reported, and no other channel is ARMED. The head becomes the active job and enters its step
0, a steady one here, with its STARTED and MARK reports, stamped with the part time of the sample. A head that became the armed head at
the moment of the edge is not started by it: no channel changes and no report is made (R33; that such a head is known by a mark which the
next reference clock clears is the model's form, log 22). -/
def Obligations.EdgeStartsHead : Prop :=
  (∀ (s : State) (levels : BitVec 8) (c : Chan) (l : Line) (sel : EdgeSel) (j : Job) (rest : List Job) (w : Option Nat)
    (h : Header) (x : Step) (steps : List Step) (n : Nat),
    s.Settled → 800 ≤ s.sense.grid → (∀ l, (s.senseLine l).selection = .none) → (∀ d, d ≠ c → (s.chan d).state ≠ .armed) →
    (s.chan c).state = .armed → (s.chan c).active = none → (s.chan c).queue = j :: rest →
    (s.chan c).armed = some ⟨j.number, w, false⟩ → j.start = .sense l sel →
    levels.getLsbD l.val ≠ (s.senseLine l).filtered → (s.senseLine l).filter = 0x00#8 →
    sel = .either ∨ sel = (if levels.getLsbD l.val then .rise else .fall) →
    s.entry j.pattern = .ready h (x :: steps) n → (∀ k, x.kind ≠ .carrier k) →
    let length := x.duration.toNat * h.timeUnit.clocks
    ∃ t, exec (.senseSample levels) s = .next t ∧
      t.chan c = { s.chan c with
        state := .playing, queue := rest, armed := none
        active := some ⟨j, 0, 0x00#8, j.override.getD h.repeats, length, .running, none, none,
          (s.chan c).config.readback && decide (800 ≤ length)⟩ } ∧
      s.KeepsChannelsBut t c ∧
      t.rpt = s.rpt.taking
        ((if j.flags.reportStart then
            [⟨.started, s.rpt.partTime, some c, j.number, byteOf j.pattern.val, 0x01#8⟩] else [])
          ++ if x.mark && j.flags.marks then
            [⟨.mark, s.rpt.partTime, some c, j.number, 0x00#8, byteOf j.pattern.val⟩] else []) ∧
      s.KeepsAllBut t [.channels, .outputs, .sense, .reports] ∧ t.Settled) ∧
  ∀ (s : State) (levels : BitVec 8) (c : Chan) (l : Line) (sel : EdgeSel) (j : Job) (rest : List Job) (w : Option Nat),
    s.Settled → 800 ≤ s.sense.grid → (∀ l, (s.senseLine l).selection = .none) → (∀ d, d ≠ c → (s.chan d).state ≠ .armed) →
    (s.chan c).state = .armed → (s.chan c).queue = j :: rest → (s.chan c).armed = some ⟨j.number, w, true⟩ →
    j.start = .sense l sel → levels.getLsbD l.val ≠ (s.senseLine l).filtered → (s.senseLine l).filter = 0x00#8 →
    sel = .either ∨ sel = (if levels.getLsbD l.val then .rise else .fall) →
    ∃ t, exec (.senseSample levels) s = .next t ∧
      (t.senseLine l).filtered = levels.getLsbD l.val ∧ s.KeepsAllBut t [.sense] ∧ t.Settled

/-- SN_CONFIG (R117): a line above 7 or a selection that is not NONE, RISE, FALL or BOTH is refused BAD_FIELD; otherwise the line's
selection and filter time are written and its progress restarts, its levels are kept, no edge is produced, and the reply carries the
settings that the command replaced and the filtered level. -/
def Obligations.SnConfigDecides : Prop :=
  ∀ (s : State) (v : Via) (line selection filter : Byte), s.Settled → s.Executes v (.snConfig line selection filter) →
    ∃ t, exec (.snConfig v line selection filter) s = .next t ∧
      (8 ≤ line.toNat ∨ 4 ≤ selection.toNat → s.Refused t v (.snConfig line selection filter) .badField []) ∧
      ∀ l : Line, l.val = line.toNat → selection.toNat < 4 →
        (t.senseLine l).selection.code = selection ∧ (t.senseLine l).filter = filter ∧ (t.senseLine l).progress = 0 ∧
        (t.senseLine l).raw = (s.senseLine l).raw ∧ (t.senseLine l).filtered = (s.senseLine l).filtered ∧
        (∀ l', l' ≠ l → t.senseLine l' = s.senseLine l') ∧ t.sense.grid = s.sense.grid ∧
        s.Answered t v (.snConfig line selection filter)
          [(s.senseLine l).selection.code, (s.senseLine l).filter, flagByte (s.senseLine l).filtered] [.sense]

/-! ### RPT (chapter 7) -/

/-- ATTN_CONFIG and HOLD_AGE_REACHED. In every state that an event leaves, ATTN_N is pulled exactly while the enable is on and the
undelivered count is at least the threshold or the oldest undelivered record has reached a hold age that is not 0 (R134). A valid
ATTN_CONFIG is accepted in every state, writes the three settings and decides ATTN_N again under them; a changed hold time is applied to
the age of the oldest undelivered record, reckoned from its stamp; the reply carries the settings replaced and the undelivered count
(R136). An age that has been reached is kept and decides ATTN_N again; before that moment nothing changes (R134, R135). How the reached
age is kept is read from the rules (log 7, log 14). -/
def Obligations.AttentionIsDecided : Prop :=
  ∀ (s : State) (v : Via) (enable threshold holdTime : Byte), s.Settled →
    let decided := fun u : ReportUnit => u.enable && (decide (u.threshold ≤ u.queue.length - u.batchSize)
      || (decide (u.holdTime ≠ 0x00#8) && (u.queue[u.batchSize]?).isSome && u.ageReached))
    s.rpt.attention = decided s.rpt ∧
    (s.Executes v (.attnConfig enable threshold holdTime) →
      ∃ t, exec (.attnConfig v enable threshold holdTime) s = .next t ∧ t.rpt.attention = decided t.rpt ∧
        (2 ≤ enable.toNat ∨ threshold.toNat = 0 ∨ 32 ≤ threshold.toNat →
          s.Refused t v (.attnConfig enable threshold holdTime) .badField []) ∧
        (enable.toNat < 2 → 1 ≤ threshold.toNat → threshold.toNat ≤ 31 →
          t.rpt.enable = decide (enable = 0x01#8) ∧ t.rpt.threshold = threshold.toNat ∧ t.rpt.holdTime = holdTime ∧
          t.rpt.queue = s.rpt.queue ∧ t.rpt.batch = s.rpt.batch ∧ t.rpt.nextSequence = s.rpt.nextSequence ∧
          t.rpt.partTime = s.rpt.partTime ∧ t.rpt.subMicro = s.rpt.subMicro ∧
          (holdTime = s.rpt.holdTime → t.rpt.ageReached = s.rpt.ageReached) ∧
          (holdTime ≠ s.rpt.holdTime → t.rpt.ageReached = (match s.rpt.queue[s.rpt.batchSize]? with
            | none => false
            | some r => decide (holdTime ≠ 0x00#8) &&
                decide (holdTime.toNat * 1000 ≤ (s.rpt.partTime - r.report.time).toNat))) ∧
          s.Answered t v (.attnConfig enable threshold holdTime)
            [flagByte s.rpt.enable, byteOf s.rpt.threshold, s.rpt.holdTime,
              byteOf (s.rpt.queue.length - s.rpt.batchSize)] [.reports])) ∧
    ∃ t, exec .holdAgeReached s = .next t ∧
      ((s.rpt.queue[s.rpt.batchSize]? = none ∨ s.rpt.holdTime = 0x00#8 ∨ s.rpt.ageReached = true) → t = s) ∧
      ∀ r, s.rpt.queue[s.rpt.batchSize]? = some r → s.rpt.holdTime ≠ 0x00#8 → s.rpt.ageReached = false →
        ((s.rpt.partTime - r.report.time).toNat < s.rpt.holdTime.toNat * 1000 → t = s) ∧
        (s.rpt.holdTime.toNat * 1000 ≤ (s.rpt.partTime - r.report.time).toNat →
          t.rpt = { s.rpt with ageReached := true, attention := s.rpt.enable } ∧ s.KeepsAllBut t [.reports] ∧ t.Settled)

/-- FETCH (R130). An outstanding batch whose tag is the frame's, a nonzero tag, is sent again unchanged. Otherwise the outstanding batch
is removed from the head of the queue and the oldest min(k, m) of the m records left form the new batch with the frame's tag, or none if
m is 0. The reply carries the number of records sent, the undelivered count after the command and the records, and the age of the record
that is then the oldest undelivered is reckoned from its stamp (R135, log 14). -/
def Obligations.FetchDecides : Prop :=
  ∀ (s : State) (v : Via) (k : Byte), s.Settled → s.rpt.Ok → s.Executes v (.fetch k) → 1 ≤ k.toNat → k.toNat ≤ 4 →
    ∃ t, exec (.fetch v k) s = .next t ∧
      let again := ∃ b, s.rpt.batch = some b ∧ b.tag = v.tag ∧ v.tag ≠ 0x00#8
      (again →
        s.Answered t v (.fetch k) (byteOf s.rpt.batchSize :: byteOf (s.rpt.queue.length - s.rpt.batchSize)
          :: (s.rpt.queue.take s.rpt.batchSize).flatMap Record.bytes) []) ∧
      (¬again →
        let left := s.rpt.queue.drop s.rpt.batchSize
        let size := min k.toNat left.length
        t.rpt.queue = left ∧ t.rpt.batch = (if left = [] then none else some ⟨v.tag, size⟩) ∧
        t.rpt.nextSequence = s.rpt.nextSequence ∧ t.rpt.partTime = s.rpt.partTime ∧ t.rpt.enable = s.rpt.enable ∧
        t.rpt.threshold = s.rpt.threshold ∧ t.rpt.holdTime = s.rpt.holdTime ∧
        t.rpt.ageReached = (match left[size]? with
          | none => false
          | some r => decide (s.rpt.holdTime ≠ 0x00#8) &&
              decide (s.rpt.holdTime.toNat * 1000 ≤ (s.rpt.partTime - r.report.time).toNat)) ∧
        s.Answered t v (.fetch k)
          (byteOf size :: byteOf (left.length - size) :: (left.take size).flatMap Record.bytes) [.reports])

/-- ACK (R132): an outstanding batch with the tag named is removed from the head of the queue, the undelivered count is as it was, and
the reply carries the number of records removed and that count; without such a batch the command is refused NOT_FOUND. -/
def Obligations.AckDecides : Prop :=
  ∀ (s : State) (v : Via) (tag : Byte), s.Settled → s.rpt.Ok → s.Executes v (.ack tag) →
    ∃ t, exec (.ack v tag) s = .next t ∧
      ((∀ b, s.rpt.batch = some b → b.tag ≠ tag) → s.Refused t v (.ack tag) .notFound []) ∧
      ∀ b, s.rpt.batch = some b → b.tag = tag →
        t.rpt = { s.rpt with queue := s.rpt.queue.drop b.size, batch := none } ∧
        t.rpt.undelivered = s.rpt.undelivered ∧
        s.Answered t v (.ack tag) [byteOf b.size, byteOf s.rpt.undelivered] [.reports]

/-- RPT takes an ordinary report (R125, R126, R127): it consumes a sequence number; with at most 30 records it is appended with that
number; with 31 or 32 it is lost, into the marker that is the newest record, whose count goes up to 255 at most, or into a new marker
with count 1 and the report's number and time. -/
def Obligations.ReportIsTaken : Prop :=
  ∀ (u : ReportUnit) (r : Report), u.Ok → r.kind ≠ .overflow →
    (u.take r).nextSequence = u.nextSequence + 1#8 ∧ (u.take r).batch = u.batch ∧
    (u.queue.length ≤ 30 → (u.take r).queue = u.queue ++ [⟨r, u.nextSequence⟩]) ∧
    (31 ≤ u.queue.length → ∀ before m, u.queue = before ++ [m] →
      (m.report.kind = .overflow →
        (u.take r).queue = before ++ [{ m with report := { m.report with
          a := if m.report.a = 0xFF#8 then 0xFF#8 else m.report.a + 1#8 } }]) ∧
      (m.report.kind ≠ .overflow →
        u.queue.length = 31 ∧ (u.take r).queue = u.queue
          ++ [⟨⟨.overflow, r.time, none, 0#16, 0x01#8, 0x00#8⟩, u.nextSequence⟩])) ∧
    (u.take r).Ok

/-! ### LEASE (chapter 8) -/

/-- LEASE (R140): a period of 1 to 9 or above 60000 is refused BAD_FIELD, any other under an EXPIRED lease BAD_STATE; a period of 0
makes the lease OFF, one of 10 to 60000 makes it RUNNING at the full new period, and the reply carries the period replaced and the
lease state after the command. -/
def Obligations.LeaseDecides : Prop :=
  ∀ (s : State) (v : Via) (period : Half), s.Settled → s.Executes v (.lease period) →
    ∃ t, exec (.lease v period) s = .next t ∧
      let n := period.toNat
      let bad := (1 ≤ n ∧ n ≤ 9) ∨ 60000 < n
      (bad → s.Refused t v (.lease period) .badField []) ∧
      (¬bad → s.lease.state = .expired → s.Refused t v (.lease period) .badState []) ∧
      (s.lease.state ≠ .expired → n = 0 → t.lease = ⟨0, .off⟩ ∧
        s.Answered t v (.lease period) (natBytes2 s.lease.period ++ [0x00#8]) [.lease]) ∧
      (s.lease.state ≠ .expired → 10 ≤ n → n ≤ 60000 → t.lease = ⟨n, .running (n * Config.clocksPerMilli)⟩ ∧
        s.Answered t v (.lease period) (natBytes2 s.lease.period ++ [0x01#8]) [.lease])

/-- LEASE_EXPIRY (R142, R143, R144): with no time left a RUNNING lease is EXPIRED with its period kept; every channel with safe-on-lease
on that is not OFF, SAFE or FAULT is SAFE, with no job, hold context or timer, and its line at the safe level; every other channel is as
it was, or was waiting and has been granted a generator that a moved channel left (R93). The gates of the moved channels close at once, and
a generator that loses its last user by it is DRAINING, or at a cycle boundary FREE or granted (R88; what a boundary is at a first cycle
start is log 8). The references of the moved channels' jobs are released, and RPT takes of each the ENDED report of its active job, SAFE,
then the DROPPED reports of its queue from the head on, and the LEASE_EXPIRED report with the mask of the moved channels, in some order
among themselves (R128). With time left nothing has expired and nothing changes (read from the rule, log 7). -/
def Obligations.LeaseExpires : Prop :=
  ∀ (s : State) (n : Nat), s.Settled → s.lease.state = .running n →
    let goes := fun c : Chan => (s.chan c).config.safeOnLease && decide ((s.chan c).state ≠ .off ∧
      (s.chan c).state ≠ .safe ∧ (s.chan c).state ≠ .fault)
    ∃ t, exec .leaseExpiry s = .next t ∧
      (n ≠ 0 → t = s) ∧
      (n = 0 →
        t.lease = ⟨s.lease.period, .expired⟩ ∧
        (∀ c : Chan, goes c = true → t.chan c = ⟨.safe, (s.chan c).config, none, [], none, none, false, none⟩ ∧
          t.outs[c] = (s.chan c).config.drive (match (s.chan c).config.safeLevel with
            | .released => .released | .inactive => .inactive | .active => .active)) ∧
        s.ForceClosed t goes ∧
        s.Releases t (fun q => (((List.finRange 8).filter goes).map fun c => (s.chan c).naming q).sum) ∧
        s.rpt.Merges t.rpt (fun c => if goes c then s.leavingReports c 0x08#8 0x05#8 else [])
          [⟨.leaseExpired, s.rpt.partTime, none, 0#16, maskOf goes, 0x00#8⟩] ∧
        s.KeepsAllBut t [.patterns, .channels, .carriers, .outputs, .reports, .lease, .choices] ∧ t.Settled)

/-- RECOVER (R145): refused BAD_STATE unless the lease is EXPIRED; under an EXPIRED lease every SAFE channel becomes IDLE, every other
channel is as it was, the lease is RUNNING at its full period, and the reply's mask names the channels returned to IDLE. -/
def Obligations.RecoverDecides : Prop :=
  ∀ (s : State) (v : Via), s.Settled → s.Executes v .recover →
    ∃ t, exec (.recover v) s = .next t ∧
      (s.lease.state ≠ .expired → s.Refused t v .recover .badState []) ∧
      (s.lease.state = .expired →
        t.lease = ⟨s.lease.period, .running (s.lease.period * Config.clocksPerMilli)⟩ ∧
        (∀ c, t.chan c = if (s.chan c).state = .safe then { s.chan c with state := .idle } else s.chan c) ∧
        s.Answered t v .recover [maskOf fun c => decide ((s.chan c).state = .safe)] [.channels, .outputs, .lease])

/-! ### The unit commands and the resets (chapter 10) -/

/-- IDENT, TIME and STATUS (R124, R177, R178) are answered OK in every state. IDENT gives the fixed identity values, TIME the part time
and the sequence number of the next report, STATUS the unit status in the order of R178, its remaining time rounded as log 4 says; IDENT,
TIME and a STATUS with clear byte 0 change nothing but LINK, and a STATUS with clear byte 1 besides sets the five link error counters to
0. -/
def Obligations.UnitCommandsAnswer : Prop :=
  ∀ (s : State) (v : Via), s.Settled →
    let status := statusOk :: ([match s.lease.state with | .off => 0x00#8 | .running _ => 0x01#8 | .expired => 0x02#8]
      ++ wordBytes (BitVec.ofNat 32 (match s.lease.state with | .running n => micros n | _ => 0))
      ++ natBytes2 s.ptab.freeSteps ++ [byteOf (s.ptab.entries.toList.countP Entry.isReady),
        match s.ptab.load with | some l => byteOf l.id.val | none => 0xFF#8, byteOf s.rpt.queue.length,
        byteOf (s.rpt.queue.length - s.rpt.batchSize), byteOf s.rpt.batchSize, flagByte s.rpt.attention]
      ++ halfBytes s.link.counters.oversize ++ halfBytes s.link.counters.framing ++ halfBytes s.link.counters.gap
      ++ halfBytes s.link.counters.check ++ halfBytes s.link.counters.overrun
      ++ (List.finRange 8).map (fun c : Chan => byteOf (s.chan c).state.code)
      ++ (List.finRange 3).map fun g : GenId => (s.gen g).code)
    (s.Executes v .ident → ∃ t, exec (.ident v) s = .next t ∧
      s.Answered t v .ident [0x5D#8, 0x21#8, 0x00#8, 0x84#8, 0x02#8, 8#8, 8#8, 3#8, 8#8, 32#8, 0x02#8, 0x00#8] []) ∧
    (s.Executes v .time → ∃ t, exec (.time v) s = .next t ∧
      s.Answered t v .time (wordBytes s.rpt.partTime ++ [s.rpt.nextSequence]) []) ∧
    (s.Executes v (.status 0x00#8) → ∃ t, exec (.status v 0x00#8) s = .next t ∧
      t.link = s.link.answering v (.status 0x00#8) status none ∧ s.KeepsAllBut t [.link]) ∧
    (s.Executes v (.status 0x01#8) → ∃ t, exec (.status v 0x01#8) s = .next t ∧
      t.link = { s.link with counters := ⟨0#16, 0#16, 0#16, 0#16, 0#16⟩ }.answering v (.status 0x01#8) status none ∧
      s.KeepsAllBut t [.link])

/-- RESET is answered OK with its scope and resets nothing at its execution (R179). REPLY_END with nothing buffered makes the transmitter
QUIET (R160); at the end of an executed RESET's reply, RESET OUTPUTS makes every enabled channel IDLE without jobs, every reference count 0,
every generator FREE, the wait list empty and a lease that is not OFF RUNNING at its full period, and counts the removed jobs in one report
(R180), and RESET ALL gives every block its values after a hardware reset with the straps kept (R181). A frame in the pending buffer behind
an executed RESET OUTPUTS does, after the reset has taken effect, what its row does on the part that the reset leaves (R160; that the
reset's report comes first is read from the rules, log 27); RESET ALL discards it (R181). Before the end of the reply, the moment of which
falls on a reference clock by the model's choice (log 10), nothing changes (log 7). -/
def Obligations.ResetsTakeEffectAtReplyEnd : Prop :=
  ∀ (s : State) (v : Via) (pins : BitVec 8) (x : Sending), s.Settled →
    (∀ scope : Byte, scope = 0x01#8 ∨ scope = 0x02#8 → s.Executes v (.reset scope) →
      ∃ t, exec (.reset v scope) s = .next t ∧
        t.link = s.link.answering v (.reset scope) [0x00#8, scope]
          (some (if scope = 0x01#8 then .outputs else .all)) ∧ s.KeepsAllBut t [.link]) ∧
    (s.link.sending = some x → s.link.buffer = none →
      ∃ t, exec (.replyEnd pins) s = .next t ∧
        let ended := x.bytes.length * 10 * 8000000 ≤ x.elapsed * lineRate s.link.rate
        (¬ended → t = s) ∧
        (ended → x.reset = none → t = { s with link := { s.link with sending := none } }) ∧
        (ended → x.reset = some .outputs →
          (∀ c, t.chan c = ⟨if (s.chan c).state = .off then .off else .idle, (s.chan c).config, none, [], none, none, false,
            none⟩) ∧
          (∀ p, t.entry p = (s.entry p).clearRefs) ∧ t.ptab.load = s.ptab.load ∧
          (∀ g, t.gen g = .free) ∧ t.carb.waitList = [] ∧ t.carb.classes = s.carb.classes ∧
          t.lease = (if s.lease.state = .off then s.lease
            else ⟨s.lease.period, .running (s.lease.period * Config.clocksPerMilli)⟩) ∧
          t.rpt = s.rpt.taking [⟨.outputsReset, s.rpt.partTime, none, 0#16, byteOf s.jobNumbers.length, 0x00#8⟩] ∧
          t.link = { s.link with sending := none } ∧
          s.KeepsAllBut t [.patterns, .channels, .carriers, .outputs, .reports, .lease, .link] ∧ t.Settled) ∧
        (ended → x.reset = some .all →
          exec (.hardwareReset s.link.address s.link.rate pins) s = .next t)) ∧
    (s.link.sending = some x → x.bytes.length * 10 * 8000000 ≤ x.elapsed * lineRate s.link.rate →
      (x.reset = some .all → exec (.replyEnd pins) s = exec (.hardwareReset s.link.address s.link.rate pins) s) ∧
      ∀ (i : Instr) (v' : Via) (r : Request), x.reset = some .outputs → i.request = some (v', r) → r.Fits →
        s.isForUs v'.unitByte = true → s.link.buffer = some (commandFrame v' r) →
        ∃ t, exec (.replyEnd pins) { s with link := { s.link with buffer := none } } = .next t ∧
          exec (.replyEnd pins) s = exec i t)

/-! ### LINK (chapters 9 and 10) -/

/-- FRAME_RECEIVED decides a frame in the order of R153: a failing CRC counts into CHECK; a reply flag or another unit's address
discards the frame without counting; and otherwise the lease is renewed (R141) and the frame's command is what its command row does. In
every case the receiver is in HUNT with no gap timed. An addressed frame that finds the transmitter QUIET and is no duplicate of the cached
command is answered BAD_CODE if its code is not in the catalogue, and BAD_LENGTH if its length is not one that the catalogue permits for
the code (R169), and nothing else changes. What the two rows stand for is the model's reading (log 11, log 12). -/
def Obligations.FrameIsDecided : Prop :=
  ∀ (s : State) (f : Frame) (i : Instr) (v : Via) (r : Request), s.Settled →
    let hunting := { s with link := { s.link with receiver := .hunt, gap := none } }
    (crc16 (framedBytes f.unitByte f.tag f.code f.payload) ≠ f.crc →
      exec (.frameReceived f) s = .next { hunting with link := { hunting.link with
        counters := { s.link.counters with check := countUp s.link.counters.check } } }) ∧
    (crc16 (framedBytes f.unitByte f.tag f.code f.payload) = f.crc →
      f.unitByte.getLsbD 3 = true ∨
        (f.unitByte.toNat / 16 ≠ 15 ∧ s.link.address ≠ 15#4 ∧ f.unitByte.toNat / 16 ≠ s.link.address.toNat) →
      exec (.frameReceived f) s = .next hunting) ∧
    (i.request = some (v, r) → f = commandFrame v r → f.unitByte.getLsbD 3 = false →
      f.unitByte.toNat / 16 = 15 ∨ s.link.address = 15#4 ∨ f.unitByte.toNat / 16 = s.link.address.toNat →
      ∃ t, exec (.frameReceived f) s = .next t ∧ exec i { hunting with lease := match s.lease.state with
        | .running _ => ⟨s.lease.period, .running (s.lease.period * Config.clocksPerMilli)⟩
        | _ => s.lease } = .next t) ∧
    (crc16 (framedBytes f.unitByte f.tag f.code f.payload) = f.crc → f.unitByte.getLsbD 3 = false →
      f.unitByte.toNat / 16 ≠ 15 → s.link.address = 15#4 ∨ f.unitByte.toNat / 16 = s.link.address.toNat →
      s.link.sending = none → (∀ x, s.link.cache = some x → f.tag = 0x00#8 ∨ x.tag ≠ f.tag ∨ x.crc ≠ f.crc) →
      let refused := fun status : Byte =>
        let reply := wireBytes (byteOf (s.link.address.toNat * 16 + 8)) f.tag f.code [status]
        { hunting with
          lease := match s.lease.state with
            | .running _ => ⟨s.lease.period, .running (s.lease.period * Config.clocksPerMilli)⟩
            | _ => s.lease
          link := { hunting.link with sending := some ⟨reply, none, 0⟩, cache := some ⟨f.tag, f.crc, reply⟩ } }
      (catalogueLengths f.code = [] → exec (.frameReceived f) s = .next (refused 0x01#8)) ∧
      (catalogueLengths f.code ≠ [] → f.payload.length ∉ catalogueLengths f.code →
        exec (.frameReceived f) s = .next (refused 0x02#8)))

/-- Frames that wait, are repeated or are broadcast. While a reply is sent a command waits in the empty pending buffer, or is dropped as
an overrun (R158), and at the end of a reply without a reset the buffered command does what its row does on the QUIET part (R160). A
command whose tag is not 0 and whose tag and CRC are those of the cache entry is answered with the cached reply and not executed (R163).
A broadcast whose code is not GO, STOP, HOLD, RESUME or RECOVER does nothing, and no broadcast is answered or cached; a broadcast with one
of these codes does everything outside LINK that the same command, addressed to this part and executed at once, does (R157). What a
command row stands for is the model's reading (log 11). -/
def Obligations.WaitingRepeatedAndBroadcastFrames : Prop :=
  ∀ (s : State) (i : Instr) (v : Via) (r : Request) (pins : BitVec 8), s.Settled → i.request = some (v, r) → r.Fits →
    s.isForUs v.unitByte = true →
    (∀ x, s.link.sending = some x → s.link.buffer = none →
      exec i s = .next { s with link := { s.link with buffer := some (commandFrame v r) } }) ∧
    (∀ x f, s.link.sending = some x → s.link.buffer = some f →
      exec i s = .next { s with link := { s.link with
        counters := { s.link.counters with overrun := countUp s.link.counters.overrun } } }) ∧
    (∀ x, s.link.sending = some x → x.reset = none → s.link.buffer = some (commandFrame v r) → s.link.replyDue = true →
      exec (.replyEnd pins) s = exec i { s with link := { s.link with sending := none, buffer := none } }) ∧
    (∀ x, s.link.sending = none → isBroadcast v.unitByte = false → v.tag ≠ 0x00#8 → s.link.cache = some x → x.tag = v.tag →
      x.crc = crc16 (framedBytes v.unitByte v.tag r.code r.payload) →
      exec i s = .next { s with link := { s.link with sending := some ⟨x.reply, none, 0⟩ } }) ∧
    (s.link.sending = none → isBroadcast v.unitByte = true →
      (r.code ≠ 0x48#8 → r.code ≠ 0x45#8 → r.code ≠ 0x46#8 → r.code ≠ 0x47#8 → r.code ≠ 0x09#8 → exec i s = .next s) ∧
      (r.code = 0x48#8 ∨ r.code = 0x45#8 ∨ r.code = 0x46#8 ∨ r.code = 0x47#8 ∨ r.code = 0x09#8 → ∀ i' v',
        i'.request = some (v', r) → s.Executes v' r →
        ∃ t', exec i' s = .next t' ∧ exec i s = .next { t' with link := s.link }) ∧
      ∃ t, exec i s = .next t ∧ t.link = s.link)

/-- The receiver's work between frames: CHARACTER_RECEIVED by the receiver's state (R151, R152), GAP_ABORT at its moment, and START_BIT.
Each answers a state that differs in LINK alone, but for the character that completes a frame. When a character is taken, and that the
limit of the gap falls on a reference clock, are the model's reading (log 7, log 10, log 20). -/
def Obligations.ReceiverWork : Prop :=
  ∀ (s : State) (b : Byte), s.Settled →
    let goes := fun (x : Receiver) (gap : Option Nat) => { s with link := { s.link with receiver := x, gap := gap } }
    let aborted := fun (k : Counters) => { s with link := { s.link with receiver := .hunt, gap := none, counters := k } }
    let character := exec (.characterReceived b true) s
    (s.link.receiver = .hunt →
      (b = 0xC3#8 → character = .next (goes (.header []) (some 0))) ∧ (b ≠ 0xC3#8 → character = .next s) ∧
      exec (.characterReceived b false) s = .next s) ∧
    (∀ got, s.link.receiver = .header got → got.length < 3 → character = .next (goes (.header (got ++ [b])) (some 0))) ∧
    (∀ unit tag code, s.link.receiver = .header [unit, tag, code] →
      (b = 0x00#8 → character = .next (goes (.check unit tag code [] none) (some 0))) ∧
      (1 ≤ b.toNat → b.toNat ≤ 48 → character = .next (goes (.payload unit tag code b.toNat []) (some 0))) ∧
      (48 < b.toNat → character = .next (aborted
        { s.link.counters with oversize := countUp s.link.counters.oversize }))) ∧
    (∀ unit tag code n got, s.link.receiver = .payload unit tag code n got →
      (got.length + 1 < n → character = .next (goes (.payload unit tag code n (got ++ [b])) (some 0))) ∧
      (n = got.length + 1 → character = .next (goes (.check unit tag code (got ++ [b]) none) (some 0)))) ∧
    (∀ unit tag code payload, s.link.receiver = .check unit tag code payload none →
      character = .next (goes (.check unit tag code payload (some b)) (some 0))) ∧
    (s.link.receiver ≠ .hunt → exec (.characterReceived b false) s = .next (aborted
      { s.link.counters with framing := countUp s.link.counters.framing })) ∧
    exec .startBit s = .next (goes s.link.receiver none) ∧
    ∃ t, exec .gapAbort s = .next t ∧
      (s.link.gap = none → t = s) ∧
      ∀ n, s.link.gap = some n →
        (n * lineRate s.link.rate < 3 * 10 * 8000000 → t = s) ∧
        (3 * 10 * 8000000 ≤ n * lineRate s.link.rate → t = aborted
          { s.link.counters with gap := countUp s.link.counters.gap })

/-- The CRC of the nine characters "123456789" is 29B1H (R150). -/
def Obligations.CrcCheckValue : Prop :=
  crc16 [0x31#8, 0x32#8, 0x33#8, 0x34#8, 0x35#8, 0x36#8, 0x37#8, 0x38#8, 0x39#8] = 0x29B1#16

/-- A frame whose bytes reach the receiver in HUNT one by one, each with a high stop bit, does at its last byte exactly what
FRAME_RECEIVED says of the frame, whatever its unit, tag, code, payload of at most 48 bytes, and CRC (R151, R153). -/
def Obligations.FrameBytesAreReceived : Prop :=
  ∀ (s : State) (f : Frame), s.Settled → s.link.receiver = .hunt → f.payload.length ≤ 48 →
    execAll ((0xC3#8 :: f.unitByte :: f.tag :: f.code :: byteOf f.payload.length
        :: (f.payload ++ [f.crc.extractLsb' 8 8, f.crc.extractLsb' 0 8])).map fun b => .characterReceived b true) s
      = exec (.frameReceived f) s

/-- A refused command has no consequence but its reply and the cache entry that holds it (R170): whatever the command and the state it
finds, if the status of its reply is not OK then every block but LINK is as it was. -/
def Obligations.RefusedCommandsChangeNothing : Prop :=
  ∀ (s : State) (i : Instr) (v : Via) (r : Request), s.Settled → i.request = some (v, r) → r.Fits → s.Executes v r →
    ∃ t status more reset, exec i s = .next t ∧ t.link.cache.map CacheEntry.reply
        = some (wireBytes (replyUnitByte s.link.address) v.tag r.code (status :: more)) ∧
      (status ≠ 0x00#8 → t.link = s.link.answering v r (status :: more) reset ∧ reset = none ∧ s.KeepsAllBut t [.link])

/-- A field out of range or inconsistent with another is refused BAD_FIELD, and nothing but LINK changes (R10, R12, R19, R20, R27, R41,
R14, R15, R18, R34, R46, R62, R70, R75, R77, R78, R95, R99, R102, R103, R108, R117, R130, R136, R140, R169, R178, R179). -/
def Obligations.BadFieldsAreRefused : Prop :=
  ∀ (s : State) (v : Via), s.Settled →
    let refuses := fun (i : Instr) (r : Request) =>
      s.Executes v r → ∃ t, exec i s = .next t ∧ s.Refused t v r .badField []
    (∀ clear : Byte, 2 ≤ clear.toNat → refuses (.status v clear) (.status clear)) ∧
    (∀ scope : Byte, scope.toNat = 0 ∨ 3 ≤ scope.toNat → refuses (.reset v scope) (.reset scope)) ∧
    (∀ k : Byte, k.toNat = 0 ∨ 5 ≤ k.toNat → refuses (.fetch v k) (.fetch k)) ∧
    (∀ p : OpenFields, 32 ≤ p.id.toNat ∨ p.steps.toNat = 0 ∨ 65 ≤ p.steps.toNat ∨ 4 ≤ p.timeUnit.toNat ∨
      p.steps.toNat ≤ p.loopStart.toNat ∨ 2 ≤ p.finalAction.toNat ∨
      (p.finalAction.toNat = 1 ∧ 32 ≤ p.target.toNat) ∨ (p.finalAction.toNat = 0 ∧ p.target.toNat ≠ 0) →
      refuses (.patOpen v p) (.patOpen p)) ∧
    (∀ (id first : Byte) (records : List RawStep), 1 ≤ records.length → records.length ≤ 8 →
      32 ≤ id.toNat ∨ 64 < first.toNat + records.length ∨
        (∃ x ∈ records, x.duration = 0#16 ∨ 4 ≤ x.kindMark.toNat % 128 ∨
          (x.kindMark.toNat % 128 = 2 ∧ 8 ≤ x.cls.toNat) ∨ (x.kindMark.toNat % 128 ≠ 2 ∧ x.cls ≠ 0x00#8)) →
      refuses (.patSteps v id first records) (.patSteps id first records)) ∧
    (∀ id : Byte, 32 ≤ id.toNat → refuses (.patInfo v id) (.patInfo id)) ∧
    (∀ id first count : Byte, 32 ≤ id.toNat ∨ count.toNat = 0 ∨ 9 ≤ count.toNat ∨ 64 < first.toNat + count.toNat →
      refuses (.patRead v id first count) (.patRead id first count)) ∧
    (∀ (cls : Byte) (period high : Half), 8 ≤ cls.toNat ∨ period.toNat < 16 ∨ high.toNat = 0 ∨ period.toNat ≤ high.toNat →
      refuses (.carSet v cls period high) (.carSet cls period high)) ∧
    (∀ cls : Byte, 8 ≤ cls.toNat → refuses (.carClear v cls) (.carClear cls)) ∧
    (∀ part : Byte, 2 ≤ part.toNat → refuses (.carStatus v part) (.carStatus part)) ∧
    (∀ p : ConfigFields, 8 ≤ p.channel.toNat ∨ 2 ≤ p.polarity.toNat ∨ 2 ≤ p.drive.toNat ∨ 2 ≤ p.rest.toNat ∨
      3 ≤ p.safe.toNat ∨ 2 ≤ p.readback.toNat ∨ 2 ≤ p.safeOnLease.toNat ∨ 255 < p.waitLimit.toNat →
      refuses (.chConfig v p) (.chConfig p)) ∧
    refuses (.chEnable v 0x00#8) (.chEnable 0x00#8) ∧
    (∀ mask force : Byte, mask.toNat = 0 ∨ 2 ≤ force.toNat → refuses (.chDisable v mask force) (.chDisable mask force)) ∧
    (∀ p : PlayFields, 8 ≤ p.channel.toNat ∨ 32 ≤ p.pattern.toNat ∨ 4 ≤ p.priority.toNat ∨ 3 ≤ p.start.toNat ∨
      (p.start.toNat = 1 ∧ (8 ≤ p.line.toNat ∨ p.edge.toNat = 0 ∨ 4 ≤ p.edge.toNat)) ∨
      (p.start.toNat ≠ 1 ∧ (p.line.toNat ≠ 0 ∨ p.edge.toNat ≠ 0)) ∨ (p.start.toNat = 0 ∧ p.window.toNat ≠ 0) ∨
      2 ≤ p.overrideFlag.toNat ∨ (p.overrideFlag.toNat = 0 ∧ p.override.toNat ≠ 0) ∨ 16 ≤ p.flags.toNat →
      refuses (.play v p) (.play p)) ∧
    (∀ (channel : Byte) (job : Half), 8 ≤ channel.toNat ∨ job.toNat = 0 →
      refuses (.cancel v channel job) (.cancel channel job)) ∧
    (∀ mask boundary flush : Byte, mask.toNat = 0 ∨ boundary.toNat = 0 ∨ 4 ≤ boundary.toNat ∨ 2 ≤ flush.toNat →
      refuses (.stop v mask boundary flush) (.stop mask boundary flush)) ∧
    refuses (.hold v 0x00#8) (.hold 0x00#8) ∧ refuses (.resume v 0x00#8) (.resume 0x00#8) ∧
    refuses (.go v 0x00#8) (.go 0x00#8) ∧ refuses (.clearFault v 0x00#8) (.clearFault 0x00#8) ∧
    (∀ channel : Byte, 8 ≤ channel.toNat → refuses (.chStatus v channel) (.chStatus channel)) ∧
    (∀ id : Byte, 32 ≤ id.toNat → refuses (.patSeal v id) (.patSeal id) ∧ refuses (.patDiscard v id) (.patDiscard id) ∧
      refuses (.patDelete v id) (.patDelete id)) ∧
    (∀ period : Half, (1 ≤ period.toNat ∧ period.toNat ≤ 9) ∨ 60000 < period.toNat →
      refuses (.lease v period) (.lease period)) ∧
    (∀ enable threshold holdTime : Byte, 2 ≤ enable.toNat ∨ threshold.toNat = 0 ∨ 32 ≤ threshold.toNat →
      refuses (.attnConfig v enable threshold holdTime) (.attnConfig enable threshold holdTime)) ∧
    (∀ line selection filter : Byte, 8 ≤ line.toNat ∨ 4 ≤ selection.toNat →
      refuses (.snConfig v line selection filter) (.snConfig line selection filter)) ∧
    refuses (.chDisableForce v 0x00#8) (.chDisable 0x00#8 0x01#8)

/-! ### Invariants that every step keeps -/

/-- Every step keeps the report queue as R126 and R129 say: at most 32 records, at most 31 of them no markers, no two markers adjacent,
a marker at the tail of a full queue, and a batch of the oldest 1 to 4. The state before the step holds no report still to be taken. -/
def Obligations.StepKeepsReports : Prop :=
  ∀ s t : State, s.outbox = [] → s.rpt.Ok → step s = .next t → t.rpt.Ok ∧ t.outbox = []

/-- Every step keeps the pattern table within the step pool with at most one LOADING entry, the one in the load slot (R1, R3, R4), every
defined carrier class in range (R76), no class held by two generators (of R79), no channel waiting for a class that a generator holds
(of R84), and none waiting while a generator is FREE (of R90). -/
def Obligations.StepKeepsTables : Prop :=
  ∀ s t : State, step s = .next t →
    (s.ptab.Ok → t.ptab.Ok) ∧ (s.ClassesOk → t.ClassesOk) ∧ (s.CarriersOk → t.CarriersOk)

/-- Every step keeps each queue at 4 jobs at most, ordered by priority from the highest (R26), and the job numbers of all existing jobs
different from each other and from 0 (R25). -/
def Obligations.StepKeepsJobs : Prop :=
  ∀ s t : State, (∀ c, (s.chan c).QueueOk) → step s = .next t →
    (∀ c, (t.chan c).QueueOk) ∧ (s.NumbersOk → t.NumbersOk)

/-- Every step keeps together: each channel holding what its state says (R22), every place on the wait list with a channel in
CARRIER_WAIT (R84), SAFE under an EXPIRED lease alone with every flagged channel in OFF, SAFE or FAULT then (R142, R144), and every
reference count equal to the number of jobs that name the entry (R8); with them, no users of a FREE or DRAINING generator and at least
one of a RUNNING one (R79), and a place on the wait list for every channel in CARRIER_WAIT (R84); and every step leaves the lines and
ATTN_N as the state says (R100, R134). -/
def Obligations.StepKeepsChannels : Prop :=
  ∀ s t : State, step s = .next t →
    (s.ChannelsOk → s.WaitersOk → s.LeaseOk → s.RefsOk → t.ChannelsOk ∧ t.WaitersOk ∧ t.LeaseOk ∧ t.RefsOk) ∧
    (s.ChannelsOk → s.WaitersOk → s.LeaseOk → s.RefsOk → s.UsersOk → t.UsersOk) ∧
    (s.Settled → t.Settled)

end
end

