-- ==== Sys2Proof/Laws/State.lean ====
section
/-! SUPPORT. The small lemmas of the state updates: one per field that an update keeps, and what it writes. -/

namespace Sys2Proof.Machine

variable (s : State)

/-! ### setChan -/

@[simp] theorem State.setChan_ptab (c : Chan) (ch : Channel) : (s.setChan c ch).ptab = s.ptab := rfl
@[simp] theorem State.setChan_nextJob (c : Chan) (ch : Channel) : (s.setChan c ch).nextJob = s.nextJob := rfl
@[simp] theorem State.setChan_carb (c : Chan) (ch : Channel) : (s.setChan c ch).carb = s.carb := rfl
@[simp] theorem State.setChan_outs (c : Chan) (ch : Channel) : (s.setChan c ch).outs = s.outs := rfl
@[simp] theorem State.setChan_sense (c : Chan) (ch : Channel) : (s.setChan c ch).sense = s.sense := rfl
@[simp] theorem State.setChan_rpt (c : Chan) (ch : Channel) : (s.setChan c ch).rpt = s.rpt := rfl
@[simp] theorem State.setChan_lease (c : Chan) (ch : Channel) : (s.setChan c ch).lease = s.lease := rfl
@[simp] theorem State.setChan_link (c : Chan) (ch : Channel) : (s.setChan c ch).link = s.link := rfl
@[simp] theorem State.setChan_outbox (c : Chan) (ch : Channel) : (s.setChan c ch).outbox = s.outbox := rfl
@[simp] theorem State.setChan_choices (c : Chan) (ch : Channel) : (s.setChan c ch).choices = s.choices := rfl
@[simp] theorem State.setChan_clock (c : Chan) (ch : Channel) : (s.setChan c ch).clock = s.clock := rfl
@[simp] theorem State.setChan_pending (c : Chan) (ch : Channel) : (s.setChan c ch).pending = s.pending := rfl
@[simp] theorem State.entry_setChan (c : Chan) (ch : Channel) (q : PatId) :
    (s.setChan c ch).entry q = s.entry q := rfl
@[simp] theorem State.gen_setChan (c : Chan) (ch : Channel) (i : GenId) :
    (s.setChan c ch).gen i = s.gen i := rfl
@[simp] theorem State.carrierClass_setChan (c : Chan) (ch : Channel) (m : Cls) :
    (s.setChan c ch).carrierClass m = s.carrierClass m := rfl
@[simp] theorem State.senseLine_setChan (c : Chan) (ch : Channel) (l : Line) :
    (s.setChan c ch).senseLine l = s.senseLine l := rfl

/-! ### modChan -/

@[simp] theorem State.modChan_ptab (c : Chan) (f : Channel → Channel) : (s.modChan c f).ptab = s.ptab := rfl
@[simp] theorem State.modChan_nextJob (c : Chan) (f : Channel → Channel) : (s.modChan c f).nextJob = s.nextJob := rfl
@[simp] theorem State.modChan_carb (c : Chan) (f : Channel → Channel) : (s.modChan c f).carb = s.carb := rfl
@[simp] theorem State.modChan_outs (c : Chan) (f : Channel → Channel) : (s.modChan c f).outs = s.outs := rfl
@[simp] theorem State.modChan_sense (c : Chan) (f : Channel → Channel) : (s.modChan c f).sense = s.sense := rfl
@[simp] theorem State.modChan_rpt (c : Chan) (f : Channel → Channel) : (s.modChan c f).rpt = s.rpt := rfl
@[simp] theorem State.modChan_lease (c : Chan) (f : Channel → Channel) : (s.modChan c f).lease = s.lease := rfl
@[simp] theorem State.modChan_link (c : Chan) (f : Channel → Channel) : (s.modChan c f).link = s.link := rfl
@[simp] theorem State.modChan_outbox (c : Chan) (f : Channel → Channel) : (s.modChan c f).outbox = s.outbox := rfl
@[simp] theorem State.modChan_choices (c : Chan) (f : Channel → Channel) : (s.modChan c f).choices = s.choices := rfl
@[simp] theorem State.modChan_clock (c : Chan) (f : Channel → Channel) : (s.modChan c f).clock = s.clock := rfl
@[simp] theorem State.modChan_pending (c : Chan) (f : Channel → Channel) : (s.modChan c f).pending = s.pending := rfl
@[simp] theorem State.entry_modChan (c : Chan) (f : Channel → Channel) (q : PatId) :
    (s.modChan c f).entry q = s.entry q := rfl
@[simp] theorem State.gen_modChan (c : Chan) (f : Channel → Channel) (i : GenId) :
    (s.modChan c f).gen i = s.gen i := rfl
@[simp] theorem State.carrierClass_modChan (c : Chan) (f : Channel → Channel) (m : Cls) :
    (s.modChan c f).carrierClass m = s.carrierClass m := rfl
@[simp] theorem State.senseLine_modChan (c : Chan) (f : Channel → Channel) (l : Line) :
    (s.modChan c f).senseLine l = s.senseLine l := rfl

/-! ### modActive -/

@[simp] theorem State.modActive_ptab (c : Chan) (f : Active → Active) : (s.modActive c f).ptab = s.ptab := rfl
@[simp] theorem State.modActive_nextJob (c : Chan) (f : Active → Active) : (s.modActive c f).nextJob = s.nextJob := rfl
@[simp] theorem State.modActive_carb (c : Chan) (f : Active → Active) : (s.modActive c f).carb = s.carb := rfl
@[simp] theorem State.modActive_outs (c : Chan) (f : Active → Active) : (s.modActive c f).outs = s.outs := rfl
@[simp] theorem State.modActive_sense (c : Chan) (f : Active → Active) : (s.modActive c f).sense = s.sense := rfl
@[simp] theorem State.modActive_rpt (c : Chan) (f : Active → Active) : (s.modActive c f).rpt = s.rpt := rfl
@[simp] theorem State.modActive_lease (c : Chan) (f : Active → Active) : (s.modActive c f).lease = s.lease := rfl
@[simp] theorem State.modActive_link (c : Chan) (f : Active → Active) : (s.modActive c f).link = s.link := rfl
@[simp] theorem State.modActive_outbox (c : Chan) (f : Active → Active) : (s.modActive c f).outbox = s.outbox := rfl
@[simp] theorem State.modActive_choices (c : Chan) (f : Active → Active) : (s.modActive c f).choices = s.choices := rfl
@[simp] theorem State.modActive_clock (c : Chan) (f : Active → Active) : (s.modActive c f).clock = s.clock := rfl
@[simp] theorem State.modActive_pending (c : Chan) (f : Active → Active) : (s.modActive c f).pending = s.pending := rfl
@[simp] theorem State.entry_modActive (c : Chan) (f : Active → Active) (q : PatId) :
    (s.modActive c f).entry q = s.entry q := rfl
@[simp] theorem State.gen_modActive (c : Chan) (f : Active → Active) (i : GenId) :
    (s.modActive c f).gen i = s.gen i := rfl
@[simp] theorem State.carrierClass_modActive (c : Chan) (f : Active → Active) (m : Cls) :
    (s.modActive c f).carrierClass m = s.carrierClass m := rfl
@[simp] theorem State.senseLine_modActive (c : Chan) (f : Active → Active) (l : Line) :
    (s.modActive c f).senseLine l = s.senseLine l := rfl

/-! ### mapChans -/

@[simp] theorem State.mapChans_ptab (f : Chan → Channel → Channel) : (s.mapChans f).ptab = s.ptab := rfl
@[simp] theorem State.mapChans_nextJob (f : Chan → Channel → Channel) : (s.mapChans f).nextJob = s.nextJob := rfl
@[simp] theorem State.mapChans_carb (f : Chan → Channel → Channel) : (s.mapChans f).carb = s.carb := rfl
@[simp] theorem State.mapChans_outs (f : Chan → Channel → Channel) : (s.mapChans f).outs = s.outs := rfl
@[simp] theorem State.mapChans_sense (f : Chan → Channel → Channel) : (s.mapChans f).sense = s.sense := rfl
@[simp] theorem State.mapChans_rpt (f : Chan → Channel → Channel) : (s.mapChans f).rpt = s.rpt := rfl
@[simp] theorem State.mapChans_lease (f : Chan → Channel → Channel) : (s.mapChans f).lease = s.lease := rfl
@[simp] theorem State.mapChans_link (f : Chan → Channel → Channel) : (s.mapChans f).link = s.link := rfl
@[simp] theorem State.mapChans_outbox (f : Chan → Channel → Channel) : (s.mapChans f).outbox = s.outbox := rfl
@[simp] theorem State.mapChans_choices (f : Chan → Channel → Channel) : (s.mapChans f).choices = s.choices := rfl
@[simp] theorem State.mapChans_clock (f : Chan → Channel → Channel) : (s.mapChans f).clock = s.clock := rfl
@[simp] theorem State.mapChans_pending (f : Chan → Channel → Channel) : (s.mapChans f).pending = s.pending := rfl
@[simp] theorem State.entry_mapChans (f : Chan → Channel → Channel) (q : PatId) :
    (s.mapChans f).entry q = s.entry q := rfl
@[simp] theorem State.gen_mapChans (f : Chan → Channel → Channel) (i : GenId) :
    (s.mapChans f).gen i = s.gen i := rfl
@[simp] theorem State.carrierClass_mapChans (f : Chan → Channel → Channel) (m : Cls) :
    (s.mapChans f).carrierClass m = s.carrierClass m := rfl
@[simp] theorem State.senseLine_mapChans (f : Chan → Channel → Channel) (l : Line) :
    (s.mapChans f).senseLine l = s.senseLine l := rfl

/-! ### setEntry -/

@[simp] theorem State.setEntry_chans (p : PatId) (e : Entry) : (s.setEntry p e).chans = s.chans := rfl
@[simp] theorem State.setEntry_nextJob (p : PatId) (e : Entry) : (s.setEntry p e).nextJob = s.nextJob := rfl
@[simp] theorem State.setEntry_carb (p : PatId) (e : Entry) : (s.setEntry p e).carb = s.carb := rfl
@[simp] theorem State.setEntry_outs (p : PatId) (e : Entry) : (s.setEntry p e).outs = s.outs := rfl
@[simp] theorem State.setEntry_sense (p : PatId) (e : Entry) : (s.setEntry p e).sense = s.sense := rfl
@[simp] theorem State.setEntry_rpt (p : PatId) (e : Entry) : (s.setEntry p e).rpt = s.rpt := rfl
@[simp] theorem State.setEntry_lease (p : PatId) (e : Entry) : (s.setEntry p e).lease = s.lease := rfl
@[simp] theorem State.setEntry_link (p : PatId) (e : Entry) : (s.setEntry p e).link = s.link := rfl
@[simp] theorem State.setEntry_outbox (p : PatId) (e : Entry) : (s.setEntry p e).outbox = s.outbox := rfl
@[simp] theorem State.setEntry_choices (p : PatId) (e : Entry) : (s.setEntry p e).choices = s.choices := rfl
@[simp] theorem State.setEntry_clock (p : PatId) (e : Entry) : (s.setEntry p e).clock = s.clock := rfl
@[simp] theorem State.setEntry_pending (p : PatId) (e : Entry) : (s.setEntry p e).pending = s.pending := rfl
@[simp] theorem State.chan_setEntry (p : PatId) (e : Entry) (d : Chan) :
    (s.setEntry p e).chan d = s.chan d := rfl
@[simp] theorem State.gen_setEntry (p : PatId) (e : Entry) (i : GenId) :
    (s.setEntry p e).gen i = s.gen i := rfl
@[simp] theorem State.carrierClass_setEntry (p : PatId) (e : Entry) (m : Cls) :
    (s.setEntry p e).carrierClass m = s.carrierClass m := rfl
@[simp] theorem State.senseLine_setEntry (p : PatId) (e : Entry) (l : Line) :
    (s.setEntry p e).senseLine l = s.senseLine l := rfl

/-! ### emptySlot -/

@[simp] theorem State.emptySlot_chans : s.emptySlot.chans = s.chans := rfl
@[simp] theorem State.emptySlot_nextJob : s.emptySlot.nextJob = s.nextJob := rfl
@[simp] theorem State.emptySlot_carb : s.emptySlot.carb = s.carb := rfl
@[simp] theorem State.emptySlot_outs : s.emptySlot.outs = s.outs := rfl
@[simp] theorem State.emptySlot_sense : s.emptySlot.sense = s.sense := rfl
@[simp] theorem State.emptySlot_rpt : s.emptySlot.rpt = s.rpt := rfl
@[simp] theorem State.emptySlot_lease : s.emptySlot.lease = s.lease := rfl
@[simp] theorem State.emptySlot_link : s.emptySlot.link = s.link := rfl
@[simp] theorem State.emptySlot_outbox : s.emptySlot.outbox = s.outbox := rfl
@[simp] theorem State.emptySlot_choices : s.emptySlot.choices = s.choices := rfl
@[simp] theorem State.emptySlot_clock : s.emptySlot.clock = s.clock := rfl
@[simp] theorem State.emptySlot_pending : s.emptySlot.pending = s.pending := rfl
@[simp] theorem State.chan_emptySlot (d : Chan) :
    s.emptySlot.chan d = s.chan d := rfl
@[simp] theorem State.gen_emptySlot (i : GenId) :
    s.emptySlot.gen i = s.gen i := rfl
@[simp] theorem State.carrierClass_emptySlot (m : Cls) :
    s.emptySlot.carrierClass m = s.carrierClass m := rfl
@[simp] theorem State.senseLine_emptySlot (l : Line) :
    s.emptySlot.senseLine l = s.senseLine l := rfl

/-! ### startLoad -/

@[simp] theorem State.startLoad_chans (p : PatId) : (s.startLoad p).chans = s.chans := rfl
@[simp] theorem State.startLoad_nextJob (p : PatId) : (s.startLoad p).nextJob = s.nextJob := rfl
@[simp] theorem State.startLoad_carb (p : PatId) : (s.startLoad p).carb = s.carb := rfl
@[simp] theorem State.startLoad_outs (p : PatId) : (s.startLoad p).outs = s.outs := rfl
@[simp] theorem State.startLoad_sense (p : PatId) : (s.startLoad p).sense = s.sense := rfl
@[simp] theorem State.startLoad_rpt (p : PatId) : (s.startLoad p).rpt = s.rpt := rfl
@[simp] theorem State.startLoad_lease (p : PatId) : (s.startLoad p).lease = s.lease := rfl
@[simp] theorem State.startLoad_link (p : PatId) : (s.startLoad p).link = s.link := rfl
@[simp] theorem State.startLoad_outbox (p : PatId) : (s.startLoad p).outbox = s.outbox := rfl
@[simp] theorem State.startLoad_choices (p : PatId) : (s.startLoad p).choices = s.choices := rfl
@[simp] theorem State.startLoad_clock (p : PatId) : (s.startLoad p).clock = s.clock := rfl
@[simp] theorem State.startLoad_pending (p : PatId) : (s.startLoad p).pending = s.pending := rfl
@[simp] theorem State.chan_startLoad (p : PatId) (d : Chan) :
    (s.startLoad p).chan d = s.chan d := rfl
@[simp] theorem State.gen_startLoad (p : PatId) (i : GenId) :
    (s.startLoad p).gen i = s.gen i := rfl
@[simp] theorem State.carrierClass_startLoad (p : PatId) (m : Cls) :
    (s.startLoad p).carrierClass m = s.carrierClass m := rfl
@[simp] theorem State.senseLine_startLoad (p : PatId) (l : Line) :
    (s.startLoad p).senseLine l = s.senseLine l := rfl

/-! ### setGen -/

@[simp] theorem State.setGen_ptab (g : GenId) (x : Gen) : (s.setGen g x).ptab = s.ptab := rfl
@[simp] theorem State.setGen_chans (g : GenId) (x : Gen) : (s.setGen g x).chans = s.chans := rfl
@[simp] theorem State.setGen_nextJob (g : GenId) (x : Gen) : (s.setGen g x).nextJob = s.nextJob := rfl
@[simp] theorem State.setGen_outs (g : GenId) (x : Gen) : (s.setGen g x).outs = s.outs := rfl
@[simp] theorem State.setGen_sense (g : GenId) (x : Gen) : (s.setGen g x).sense = s.sense := rfl
@[simp] theorem State.setGen_rpt (g : GenId) (x : Gen) : (s.setGen g x).rpt = s.rpt := rfl
@[simp] theorem State.setGen_lease (g : GenId) (x : Gen) : (s.setGen g x).lease = s.lease := rfl
@[simp] theorem State.setGen_link (g : GenId) (x : Gen) : (s.setGen g x).link = s.link := rfl
@[simp] theorem State.setGen_outbox (g : GenId) (x : Gen) : (s.setGen g x).outbox = s.outbox := rfl
@[simp] theorem State.setGen_choices (g : GenId) (x : Gen) : (s.setGen g x).choices = s.choices := rfl
@[simp] theorem State.setGen_clock (g : GenId) (x : Gen) : (s.setGen g x).clock = s.clock := rfl
@[simp] theorem State.setGen_pending (g : GenId) (x : Gen) : (s.setGen g x).pending = s.pending := rfl
@[simp] theorem State.chan_setGen (g : GenId) (x : Gen) (d : Chan) :
    (s.setGen g x).chan d = s.chan d := rfl
@[simp] theorem State.entry_setGen (g : GenId) (x : Gen) (q : PatId) :
    (s.setGen g x).entry q = s.entry q := rfl
@[simp] theorem State.senseLine_setGen (g : GenId) (x : Gen) (l : Line) :
    (s.setGen g x).senseLine l = s.senseLine l := rfl

/-! ### setWaitList -/

@[simp] theorem State.setWaitList_ptab (ws : List Waiter) : (s.setWaitList ws).ptab = s.ptab := rfl
@[simp] theorem State.setWaitList_chans (ws : List Waiter) : (s.setWaitList ws).chans = s.chans := rfl
@[simp] theorem State.setWaitList_nextJob (ws : List Waiter) : (s.setWaitList ws).nextJob = s.nextJob := rfl
@[simp] theorem State.setWaitList_outs (ws : List Waiter) : (s.setWaitList ws).outs = s.outs := rfl
@[simp] theorem State.setWaitList_sense (ws : List Waiter) : (s.setWaitList ws).sense = s.sense := rfl
@[simp] theorem State.setWaitList_rpt (ws : List Waiter) : (s.setWaitList ws).rpt = s.rpt := rfl
@[simp] theorem State.setWaitList_lease (ws : List Waiter) : (s.setWaitList ws).lease = s.lease := rfl
@[simp] theorem State.setWaitList_link (ws : List Waiter) : (s.setWaitList ws).link = s.link := rfl
@[simp] theorem State.setWaitList_outbox (ws : List Waiter) : (s.setWaitList ws).outbox = s.outbox := rfl
@[simp] theorem State.setWaitList_choices (ws : List Waiter) : (s.setWaitList ws).choices = s.choices := rfl
@[simp] theorem State.setWaitList_clock (ws : List Waiter) : (s.setWaitList ws).clock = s.clock := rfl
@[simp] theorem State.setWaitList_pending (ws : List Waiter) : (s.setWaitList ws).pending = s.pending := rfl
@[simp] theorem State.chan_setWaitList (ws : List Waiter) (d : Chan) :
    (s.setWaitList ws).chan d = s.chan d := rfl
@[simp] theorem State.entry_setWaitList (ws : List Waiter) (q : PatId) :
    (s.setWaitList ws).entry q = s.entry q := rfl
@[simp] theorem State.senseLine_setWaitList (ws : List Waiter) (l : Line) :
    (s.setWaitList ws).senseLine l = s.senseLine l := rfl

/-! ### setClass -/

@[simp] theorem State.setClass_ptab (k : Cls) (x : Option CarrierClass) : (s.setClass k x).ptab = s.ptab := rfl
@[simp] theorem State.setClass_chans (k : Cls) (x : Option CarrierClass) : (s.setClass k x).chans = s.chans := rfl
@[simp] theorem State.setClass_nextJob (k : Cls) (x : Option CarrierClass) : (s.setClass k x).nextJob = s.nextJob := rfl
@[simp] theorem State.setClass_outs (k : Cls) (x : Option CarrierClass) : (s.setClass k x).outs = s.outs := rfl
@[simp] theorem State.setClass_sense (k : Cls) (x : Option CarrierClass) : (s.setClass k x).sense = s.sense := rfl
@[simp] theorem State.setClass_rpt (k : Cls) (x : Option CarrierClass) : (s.setClass k x).rpt = s.rpt := rfl
@[simp] theorem State.setClass_lease (k : Cls) (x : Option CarrierClass) : (s.setClass k x).lease = s.lease := rfl
@[simp] theorem State.setClass_link (k : Cls) (x : Option CarrierClass) : (s.setClass k x).link = s.link := rfl
@[simp] theorem State.setClass_outbox (k : Cls) (x : Option CarrierClass) : (s.setClass k x).outbox = s.outbox := rfl
@[simp] theorem State.setClass_choices (k : Cls) (x : Option CarrierClass) : (s.setClass k x).choices = s.choices := rfl
@[simp] theorem State.setClass_clock (k : Cls) (x : Option CarrierClass) : (s.setClass k x).clock = s.clock := rfl
@[simp] theorem State.setClass_pending (k : Cls) (x : Option CarrierClass) : (s.setClass k x).pending = s.pending := rfl
@[simp] theorem State.chan_setClass (k : Cls) (x : Option CarrierClass) (d : Chan) :
    (s.setClass k x).chan d = s.chan d := rfl
@[simp] theorem State.entry_setClass (k : Cls) (x : Option CarrierClass) (q : PatId) :
    (s.setClass k x).entry q = s.entry q := rfl
@[simp] theorem State.senseLine_setClass (k : Cls) (x : Option CarrierClass) (l : Line) :
    (s.setClass k x).senseLine l = s.senseLine l := rfl

/-! ### report -/

@[simp] theorem State.report_ptab (p : Producer) (kind : ReportKind) (source : Option (Fin 8)) (job : Half) (a b : Byte) : (s.report p kind source job a b).ptab = s.ptab := rfl
@[simp] theorem State.report_chans (p : Producer) (kind : ReportKind) (source : Option (Fin 8)) (job : Half) (a b : Byte) : (s.report p kind source job a b).chans = s.chans := rfl
@[simp] theorem State.report_nextJob (p : Producer) (kind : ReportKind) (source : Option (Fin 8)) (job : Half) (a b : Byte) : (s.report p kind source job a b).nextJob = s.nextJob := rfl
@[simp] theorem State.report_carb (p : Producer) (kind : ReportKind) (source : Option (Fin 8)) (job : Half) (a b : Byte) : (s.report p kind source job a b).carb = s.carb := rfl
@[simp] theorem State.report_outs (p : Producer) (kind : ReportKind) (source : Option (Fin 8)) (job : Half) (a b : Byte) : (s.report p kind source job a b).outs = s.outs := rfl
@[simp] theorem State.report_sense (p : Producer) (kind : ReportKind) (source : Option (Fin 8)) (job : Half) (a b : Byte) : (s.report p kind source job a b).sense = s.sense := rfl
@[simp] theorem State.report_rpt (p : Producer) (kind : ReportKind) (source : Option (Fin 8)) (job : Half) (a b : Byte) : (s.report p kind source job a b).rpt = s.rpt := rfl
@[simp] theorem State.report_lease (p : Producer) (kind : ReportKind) (source : Option (Fin 8)) (job : Half) (a b : Byte) : (s.report p kind source job a b).lease = s.lease := rfl
@[simp] theorem State.report_link (p : Producer) (kind : ReportKind) (source : Option (Fin 8)) (job : Half) (a b : Byte) : (s.report p kind source job a b).link = s.link := rfl
@[simp] theorem State.report_choices (p : Producer) (kind : ReportKind) (source : Option (Fin 8)) (job : Half) (a b : Byte) : (s.report p kind source job a b).choices = s.choices := rfl
@[simp] theorem State.report_clock (p : Producer) (kind : ReportKind) (source : Option (Fin 8)) (job : Half) (a b : Byte) : (s.report p kind source job a b).clock = s.clock := rfl
@[simp] theorem State.report_pending (p : Producer) (kind : ReportKind) (source : Option (Fin 8)) (job : Half) (a b : Byte) : (s.report p kind source job a b).pending = s.pending := rfl
@[simp] theorem State.chan_report (p : Producer) (kind : ReportKind) (source : Option (Fin 8)) (job : Half) (a b : Byte) (d : Chan) :
    (s.report p kind source job a b).chan d = s.chan d := rfl
@[simp] theorem State.entry_report (p : Producer) (kind : ReportKind) (source : Option (Fin 8)) (job : Half) (a b : Byte) (q : PatId) :
    (s.report p kind source job a b).entry q = s.entry q := rfl
@[simp] theorem State.gen_report (p : Producer) (kind : ReportKind) (source : Option (Fin 8)) (job : Half) (a b : Byte) (i : GenId) :
    (s.report p kind source job a b).gen i = s.gen i := rfl
@[simp] theorem State.carrierClass_report (p : Producer) (kind : ReportKind) (source : Option (Fin 8)) (job : Half) (a b : Byte) (m : Cls) :
    (s.report p kind source job a b).carrierClass m = s.carrierClass m := rfl
@[simp] theorem State.senseLine_report (p : Producer) (kind : ReportKind) (source : Option (Fin 8)) (job : Half) (a b : Byte) (l : Line) :
    (s.report p kind source job a b).senseLine l = s.senseLine l := rfl

/-! ### jobReport -/

@[simp] theorem State.jobReport_ptab (c : Chan) (kind : ReportKind) (job : Half) (a b : Byte) : (s.jobReport c kind job a b).ptab = s.ptab := rfl
@[simp] theorem State.jobReport_chans (c : Chan) (kind : ReportKind) (job : Half) (a b : Byte) : (s.jobReport c kind job a b).chans = s.chans := rfl
@[simp] theorem State.jobReport_nextJob (c : Chan) (kind : ReportKind) (job : Half) (a b : Byte) : (s.jobReport c kind job a b).nextJob = s.nextJob := rfl
@[simp] theorem State.jobReport_carb (c : Chan) (kind : ReportKind) (job : Half) (a b : Byte) : (s.jobReport c kind job a b).carb = s.carb := rfl
@[simp] theorem State.jobReport_outs (c : Chan) (kind : ReportKind) (job : Half) (a b : Byte) : (s.jobReport c kind job a b).outs = s.outs := rfl
@[simp] theorem State.jobReport_sense (c : Chan) (kind : ReportKind) (job : Half) (a b : Byte) : (s.jobReport c kind job a b).sense = s.sense := rfl
@[simp] theorem State.jobReport_rpt (c : Chan) (kind : ReportKind) (job : Half) (a b : Byte) : (s.jobReport c kind job a b).rpt = s.rpt := rfl
@[simp] theorem State.jobReport_lease (c : Chan) (kind : ReportKind) (job : Half) (a b : Byte) : (s.jobReport c kind job a b).lease = s.lease := rfl
@[simp] theorem State.jobReport_link (c : Chan) (kind : ReportKind) (job : Half) (a b : Byte) : (s.jobReport c kind job a b).link = s.link := rfl
@[simp] theorem State.jobReport_choices (c : Chan) (kind : ReportKind) (job : Half) (a b : Byte) : (s.jobReport c kind job a b).choices = s.choices := rfl
@[simp] theorem State.jobReport_clock (c : Chan) (kind : ReportKind) (job : Half) (a b : Byte) : (s.jobReport c kind job a b).clock = s.clock := rfl
@[simp] theorem State.jobReport_pending (c : Chan) (kind : ReportKind) (job : Half) (a b : Byte) : (s.jobReport c kind job a b).pending = s.pending := rfl
@[simp] theorem State.chan_jobReport (c : Chan) (kind : ReportKind) (job : Half) (a b : Byte) (d : Chan) :
    (s.jobReport c kind job a b).chan d = s.chan d := rfl
@[simp] theorem State.entry_jobReport (c : Chan) (kind : ReportKind) (job : Half) (a b : Byte) (q : PatId) :
    (s.jobReport c kind job a b).entry q = s.entry q := rfl
@[simp] theorem State.gen_jobReport (c : Chan) (kind : ReportKind) (job : Half) (a b : Byte) (i : GenId) :
    (s.jobReport c kind job a b).gen i = s.gen i := rfl
@[simp] theorem State.carrierClass_jobReport (c : Chan) (kind : ReportKind) (job : Half) (a b : Byte) (m : Cls) :
    (s.jobReport c kind job a b).carrierClass m = s.carrierClass m := rfl
@[simp] theorem State.senseLine_jobReport (c : Chan) (kind : ReportKind) (job : Half) (a b : Byte) (l : Line) :
    (s.jobReport c kind job a b).senseLine l = s.senseLine l := rfl

/-! ### driveLines -/

@[simp] theorem State.driveLines_ptab : s.driveLines.ptab = s.ptab := rfl
@[simp] theorem State.driveLines_chans : s.driveLines.chans = s.chans := rfl
@[simp] theorem State.driveLines_nextJob : s.driveLines.nextJob = s.nextJob := rfl
@[simp] theorem State.driveLines_carb : s.driveLines.carb = s.carb := rfl
@[simp] theorem State.driveLines_sense : s.driveLines.sense = s.sense := rfl
@[simp] theorem State.driveLines_rpt : s.driveLines.rpt = s.rpt := rfl
@[simp] theorem State.driveLines_lease : s.driveLines.lease = s.lease := rfl
@[simp] theorem State.driveLines_link : s.driveLines.link = s.link := rfl
@[simp] theorem State.driveLines_outbox : s.driveLines.outbox = s.outbox := rfl
@[simp] theorem State.driveLines_choices : s.driveLines.choices = s.choices := rfl
@[simp] theorem State.driveLines_clock : s.driveLines.clock = s.clock := rfl
@[simp] theorem State.driveLines_pending : s.driveLines.pending = s.pending := rfl
@[simp] theorem State.chan_driveLines (d : Chan) :
    s.driveLines.chan d = s.chan d := rfl
@[simp] theorem State.entry_driveLines (q : PatId) :
    s.driveLines.entry q = s.entry q := rfl
@[simp] theorem State.gen_driveLines (i : GenId) :
    s.driveLines.gen i = s.gen i := rfl
@[simp] theorem State.carrierClass_driveLines (m : Cls) :
    s.driveLines.carrierClass m = s.carrierClass m := rfl
@[simp] theorem State.senseLine_driveLines (l : Line) :
    s.driveLines.senseLine l = s.senseLine l := rfl

/-! ### decideAttention -/

@[simp] theorem State.decideAttention_ptab : s.decideAttention.ptab = s.ptab := rfl
@[simp] theorem State.decideAttention_chans : s.decideAttention.chans = s.chans := rfl
@[simp] theorem State.decideAttention_nextJob : s.decideAttention.nextJob = s.nextJob := rfl
@[simp] theorem State.decideAttention_carb : s.decideAttention.carb = s.carb := rfl
@[simp] theorem State.decideAttention_outs : s.decideAttention.outs = s.outs := rfl
@[simp] theorem State.decideAttention_sense : s.decideAttention.sense = s.sense := rfl
@[simp] theorem State.decideAttention_lease : s.decideAttention.lease = s.lease := rfl
@[simp] theorem State.decideAttention_link : s.decideAttention.link = s.link := rfl
@[simp] theorem State.decideAttention_outbox : s.decideAttention.outbox = s.outbox := rfl
@[simp] theorem State.decideAttention_choices : s.decideAttention.choices = s.choices := rfl
@[simp] theorem State.decideAttention_clock : s.decideAttention.clock = s.clock := rfl
@[simp] theorem State.decideAttention_pending : s.decideAttention.pending = s.pending := rfl
@[simp] theorem State.chan_decideAttention (d : Chan) :
    s.decideAttention.chan d = s.chan d := rfl
@[simp] theorem State.entry_decideAttention (q : PatId) :
    s.decideAttention.entry q = s.entry q := rfl
@[simp] theorem State.gen_decideAttention (i : GenId) :
    s.decideAttention.gen i = s.gen i := rfl
@[simp] theorem State.carrierClass_decideAttention (m : Cls) :
    s.decideAttention.carrierClass m = s.carrierClass m := rfl
@[simp] theorem State.senseLine_decideAttention (l : Line) :
    s.decideAttention.senseLine l = s.senseLine l := rfl

/-! ### clearCounters -/

@[simp] theorem State.clearCounters_ptab : s.clearCounters.ptab = s.ptab := rfl
@[simp] theorem State.clearCounters_chans : s.clearCounters.chans = s.chans := rfl
@[simp] theorem State.clearCounters_nextJob : s.clearCounters.nextJob = s.nextJob := rfl
@[simp] theorem State.clearCounters_carb : s.clearCounters.carb = s.carb := rfl
@[simp] theorem State.clearCounters_outs : s.clearCounters.outs = s.outs := rfl
@[simp] theorem State.clearCounters_sense : s.clearCounters.sense = s.sense := rfl
@[simp] theorem State.clearCounters_rpt : s.clearCounters.rpt = s.rpt := rfl
@[simp] theorem State.clearCounters_lease : s.clearCounters.lease = s.lease := rfl
@[simp] theorem State.clearCounters_outbox : s.clearCounters.outbox = s.outbox := rfl
@[simp] theorem State.clearCounters_choices : s.clearCounters.choices = s.choices := rfl
@[simp] theorem State.clearCounters_clock : s.clearCounters.clock = s.clock := rfl
@[simp] theorem State.clearCounters_pending : s.clearCounters.pending = s.pending := rfl
@[simp] theorem State.chan_clearCounters (d : Chan) :
    s.clearCounters.chan d = s.chan d := rfl
@[simp] theorem State.entry_clearCounters (q : PatId) :
    s.clearCounters.entry q = s.entry q := rfl
@[simp] theorem State.gen_clearCounters (i : GenId) :
    s.clearCounters.gen i = s.gen i := rfl
@[simp] theorem State.carrierClass_clearCounters (m : Cls) :
    s.clearCounters.carrierClass m = s.carrierClass m := rfl
@[simp] theorem State.senseLine_clearCounters (l : Line) :
    s.clearCounters.senseLine l = s.senseLine l := rfl

/-! ### send -/

@[simp] theorem State.send_ptab (bytes : List Byte) (reset : Option Scope) : (s.send bytes reset).ptab = s.ptab := rfl
@[simp] theorem State.send_chans (bytes : List Byte) (reset : Option Scope) : (s.send bytes reset).chans = s.chans := rfl
@[simp] theorem State.send_nextJob (bytes : List Byte) (reset : Option Scope) : (s.send bytes reset).nextJob = s.nextJob := rfl
@[simp] theorem State.send_carb (bytes : List Byte) (reset : Option Scope) : (s.send bytes reset).carb = s.carb := rfl
@[simp] theorem State.send_outs (bytes : List Byte) (reset : Option Scope) : (s.send bytes reset).outs = s.outs := rfl
@[simp] theorem State.send_sense (bytes : List Byte) (reset : Option Scope) : (s.send bytes reset).sense = s.sense := rfl
@[simp] theorem State.send_rpt (bytes : List Byte) (reset : Option Scope) : (s.send bytes reset).rpt = s.rpt := rfl
@[simp] theorem State.send_lease (bytes : List Byte) (reset : Option Scope) : (s.send bytes reset).lease = s.lease := rfl
@[simp] theorem State.send_outbox (bytes : List Byte) (reset : Option Scope) : (s.send bytes reset).outbox = s.outbox := rfl
@[simp] theorem State.send_choices (bytes : List Byte) (reset : Option Scope) : (s.send bytes reset).choices = s.choices := rfl
@[simp] theorem State.send_clock (bytes : List Byte) (reset : Option Scope) : (s.send bytes reset).clock = s.clock := rfl
@[simp] theorem State.send_pending (bytes : List Byte) (reset : Option Scope) : (s.send bytes reset).pending = s.pending := rfl
@[simp] theorem State.chan_send (bytes : List Byte) (reset : Option Scope) (d : Chan) :
    (s.send bytes reset).chan d = s.chan d := rfl
@[simp] theorem State.entry_send (bytes : List Byte) (reset : Option Scope) (q : PatId) :
    (s.send bytes reset).entry q = s.entry q := rfl
@[simp] theorem State.gen_send (bytes : List Byte) (reset : Option Scope) (i : GenId) :
    (s.send bytes reset).gen i = s.gen i := rfl
@[simp] theorem State.carrierClass_send (bytes : List Byte) (reset : Option Scope) (m : Cls) :
    (s.send bytes reset).carrierClass m = s.carrierClass m := rfl
@[simp] theorem State.senseLine_send (bytes : List Byte) (reset : Option Scope) (l : Line) :
    (s.send bytes reset).senseLine l = s.senseLine l := rfl

/-! ### cacheReply -/

@[simp] theorem State.cacheReply_ptab (f : Frame) (bytes : List Byte) : (s.cacheReply f bytes).ptab = s.ptab := rfl
@[simp] theorem State.cacheReply_chans (f : Frame) (bytes : List Byte) : (s.cacheReply f bytes).chans = s.chans := rfl
@[simp] theorem State.cacheReply_nextJob (f : Frame) (bytes : List Byte) : (s.cacheReply f bytes).nextJob = s.nextJob := rfl
@[simp] theorem State.cacheReply_carb (f : Frame) (bytes : List Byte) : (s.cacheReply f bytes).carb = s.carb := rfl
@[simp] theorem State.cacheReply_outs (f : Frame) (bytes : List Byte) : (s.cacheReply f bytes).outs = s.outs := rfl
@[simp] theorem State.cacheReply_sense (f : Frame) (bytes : List Byte) : (s.cacheReply f bytes).sense = s.sense := rfl
@[simp] theorem State.cacheReply_rpt (f : Frame) (bytes : List Byte) : (s.cacheReply f bytes).rpt = s.rpt := rfl
@[simp] theorem State.cacheReply_lease (f : Frame) (bytes : List Byte) : (s.cacheReply f bytes).lease = s.lease := rfl
@[simp] theorem State.cacheReply_outbox (f : Frame) (bytes : List Byte) : (s.cacheReply f bytes).outbox = s.outbox := rfl
@[simp] theorem State.cacheReply_choices (f : Frame) (bytes : List Byte) : (s.cacheReply f bytes).choices = s.choices := rfl
@[simp] theorem State.cacheReply_clock (f : Frame) (bytes : List Byte) : (s.cacheReply f bytes).clock = s.clock := rfl
@[simp] theorem State.cacheReply_pending (f : Frame) (bytes : List Byte) : (s.cacheReply f bytes).pending = s.pending := rfl
@[simp] theorem State.chan_cacheReply (f : Frame) (bytes : List Byte) (d : Chan) :
    (s.cacheReply f bytes).chan d = s.chan d := rfl
@[simp] theorem State.entry_cacheReply (f : Frame) (bytes : List Byte) (q : PatId) :
    (s.cacheReply f bytes).entry q = s.entry q := rfl
@[simp] theorem State.gen_cacheReply (f : Frame) (bytes : List Byte) (i : GenId) :
    (s.cacheReply f bytes).gen i = s.gen i := rfl
@[simp] theorem State.carrierClass_cacheReply (f : Frame) (bytes : List Byte) (m : Cls) :
    (s.cacheReply f bytes).carrierClass m = s.carrierClass m := rfl
@[simp] theorem State.senseLine_cacheReply (f : Frame) (bytes : List Byte) (l : Line) :
    (s.cacheReply f bytes).senseLine l = s.senseLine l := rfl

/-! ### reply -/

@[simp] theorem State.reply_ptab (f : Frame) (payload : List Byte) (reset : Option Scope) : (s.reply f payload reset).ptab = s.ptab := rfl
@[simp] theorem State.reply_chans (f : Frame) (payload : List Byte) (reset : Option Scope) : (s.reply f payload reset).chans = s.chans := rfl
@[simp] theorem State.reply_nextJob (f : Frame) (payload : List Byte) (reset : Option Scope) : (s.reply f payload reset).nextJob = s.nextJob := rfl
@[simp] theorem State.reply_carb (f : Frame) (payload : List Byte) (reset : Option Scope) : (s.reply f payload reset).carb = s.carb := rfl
@[simp] theorem State.reply_outs (f : Frame) (payload : List Byte) (reset : Option Scope) : (s.reply f payload reset).outs = s.outs := rfl
@[simp] theorem State.reply_sense (f : Frame) (payload : List Byte) (reset : Option Scope) : (s.reply f payload reset).sense = s.sense := rfl
@[simp] theorem State.reply_rpt (f : Frame) (payload : List Byte) (reset : Option Scope) : (s.reply f payload reset).rpt = s.rpt := rfl
@[simp] theorem State.reply_lease (f : Frame) (payload : List Byte) (reset : Option Scope) : (s.reply f payload reset).lease = s.lease := rfl
@[simp] theorem State.reply_outbox (f : Frame) (payload : List Byte) (reset : Option Scope) : (s.reply f payload reset).outbox = s.outbox := rfl
@[simp] theorem State.reply_choices (f : Frame) (payload : List Byte) (reset : Option Scope) : (s.reply f payload reset).choices = s.choices := rfl
@[simp] theorem State.reply_clock (f : Frame) (payload : List Byte) (reset : Option Scope) : (s.reply f payload reset).clock = s.clock := rfl
@[simp] theorem State.reply_pending (f : Frame) (payload : List Byte) (reset : Option Scope) : (s.reply f payload reset).pending = s.pending := rfl
@[simp] theorem State.chan_reply (f : Frame) (payload : List Byte) (reset : Option Scope) (d : Chan) :
    (s.reply f payload reset).chan d = s.chan d := rfl
@[simp] theorem State.entry_reply (f : Frame) (payload : List Byte) (reset : Option Scope) (q : PatId) :
    (s.reply f payload reset).entry q = s.entry q := rfl
@[simp] theorem State.gen_reply (f : Frame) (payload : List Byte) (reset : Option Scope) (i : GenId) :
    (s.reply f payload reset).gen i = s.gen i := rfl
@[simp] theorem State.carrierClass_reply (f : Frame) (payload : List Byte) (reset : Option Scope) (m : Cls) :
    (s.reply f payload reset).carrierClass m = s.carrierClass m := rfl
@[simp] theorem State.senseLine_reply (f : Frame) (payload : List Byte) (reset : Option Scope) (l : Line) :
    (s.reply f payload reset).senseLine l = s.senseLine l := rfl

/-! ### countError -/

@[simp] theorem State.countError_ptab (f : Counters → Counters) : (s.countError f).ptab = s.ptab := rfl
@[simp] theorem State.countError_chans (f : Counters → Counters) : (s.countError f).chans = s.chans := rfl
@[simp] theorem State.countError_nextJob (f : Counters → Counters) : (s.countError f).nextJob = s.nextJob := rfl
@[simp] theorem State.countError_carb (f : Counters → Counters) : (s.countError f).carb = s.carb := rfl
@[simp] theorem State.countError_outs (f : Counters → Counters) : (s.countError f).outs = s.outs := rfl
@[simp] theorem State.countError_sense (f : Counters → Counters) : (s.countError f).sense = s.sense := rfl
@[simp] theorem State.countError_rpt (f : Counters → Counters) : (s.countError f).rpt = s.rpt := rfl
@[simp] theorem State.countError_lease (f : Counters → Counters) : (s.countError f).lease = s.lease := rfl
@[simp] theorem State.countError_outbox (f : Counters → Counters) : (s.countError f).outbox = s.outbox := rfl
@[simp] theorem State.countError_choices (f : Counters → Counters) : (s.countError f).choices = s.choices := rfl
@[simp] theorem State.countError_clock (f : Counters → Counters) : (s.countError f).clock = s.clock := rfl
@[simp] theorem State.countError_pending (f : Counters → Counters) : (s.countError f).pending = s.pending := rfl
@[simp] theorem State.chan_countError (f : Counters → Counters) (d : Chan) :
    (s.countError f).chan d = s.chan d := rfl
@[simp] theorem State.entry_countError (f : Counters → Counters) (q : PatId) :
    (s.countError f).entry q = s.entry q := rfl
@[simp] theorem State.gen_countError (f : Counters → Counters) (i : GenId) :
    (s.countError f).gen i = s.gen i := rfl
@[simp] theorem State.carrierClass_countError (f : Counters → Counters) (m : Cls) :
    (s.countError f).carrierClass m = s.carrierClass m := rfl
@[simp] theorem State.senseLine_countError (f : Counters → Counters) (l : Line) :
    (s.countError f).senseLine l = s.senseLine l := rfl

/-! ### renewLease -/

@[simp] theorem State.renewLease_ptab : s.renewLease.ptab = s.ptab := rfl
@[simp] theorem State.renewLease_chans : s.renewLease.chans = s.chans := rfl
@[simp] theorem State.renewLease_nextJob : s.renewLease.nextJob = s.nextJob := rfl
@[simp] theorem State.renewLease_carb : s.renewLease.carb = s.carb := rfl
@[simp] theorem State.renewLease_outs : s.renewLease.outs = s.outs := rfl
@[simp] theorem State.renewLease_sense : s.renewLease.sense = s.sense := rfl
@[simp] theorem State.renewLease_rpt : s.renewLease.rpt = s.rpt := rfl
@[simp] theorem State.renewLease_link : s.renewLease.link = s.link := rfl
@[simp] theorem State.renewLease_outbox : s.renewLease.outbox = s.outbox := rfl
@[simp] theorem State.renewLease_choices : s.renewLease.choices = s.choices := rfl
@[simp] theorem State.renewLease_clock : s.renewLease.clock = s.clock := rfl
@[simp] theorem State.renewLease_pending : s.renewLease.pending = s.pending := rfl
@[simp] theorem State.chan_renewLease (d : Chan) :
    s.renewLease.chan d = s.chan d := rfl
@[simp] theorem State.entry_renewLease (q : PatId) :
    s.renewLease.entry q = s.entry q := rfl
@[simp] theorem State.gen_renewLease (i : GenId) :
    s.renewLease.gen i = s.gen i := rfl
@[simp] theorem State.carrierClass_renewLease (m : Cls) :
    s.renewLease.carrierClass m = s.carrierClass m := rfl
@[simp] theorem State.senseLine_renewLease (l : Line) :
    s.renewLease.senseLine l = s.senseLine l := rfl

/-! ### receive -/

@[simp] theorem State.receive_ptab (x : Receiver) : (s.receive x).ptab = s.ptab := rfl
@[simp] theorem State.receive_chans (x : Receiver) : (s.receive x).chans = s.chans := rfl
@[simp] theorem State.receive_nextJob (x : Receiver) : (s.receive x).nextJob = s.nextJob := rfl
@[simp] theorem State.receive_carb (x : Receiver) : (s.receive x).carb = s.carb := rfl
@[simp] theorem State.receive_outs (x : Receiver) : (s.receive x).outs = s.outs := rfl
@[simp] theorem State.receive_sense (x : Receiver) : (s.receive x).sense = s.sense := rfl
@[simp] theorem State.receive_rpt (x : Receiver) : (s.receive x).rpt = s.rpt := rfl
@[simp] theorem State.receive_lease (x : Receiver) : (s.receive x).lease = s.lease := rfl
@[simp] theorem State.receive_outbox (x : Receiver) : (s.receive x).outbox = s.outbox := rfl
@[simp] theorem State.receive_choices (x : Receiver) : (s.receive x).choices = s.choices := rfl
@[simp] theorem State.receive_clock (x : Receiver) : (s.receive x).clock = s.clock := rfl
@[simp] theorem State.receive_pending (x : Receiver) : (s.receive x).pending = s.pending := rfl
@[simp] theorem State.chan_receive (x : Receiver) (d : Chan) :
    (s.receive x).chan d = s.chan d := rfl
@[simp] theorem State.entry_receive (x : Receiver) (q : PatId) :
    (s.receive x).entry q = s.entry q := rfl
@[simp] theorem State.gen_receive (x : Receiver) (i : GenId) :
    (s.receive x).gen i = s.gen i := rfl
@[simp] theorem State.carrierClass_receive (x : Receiver) (m : Cls) :
    (s.receive x).carrierClass m = s.carrierClass m := rfl
@[simp] theorem State.senseLine_receive (x : Receiver) (l : Line) :
    (s.receive x).senseLine l = s.senseLine l := rfl

/-! ### abortFrame -/

@[simp] theorem State.abortFrame_ptab (f : Counters → Counters) : (s.abortFrame f).ptab = s.ptab := rfl
@[simp] theorem State.abortFrame_chans (f : Counters → Counters) : (s.abortFrame f).chans = s.chans := rfl
@[simp] theorem State.abortFrame_nextJob (f : Counters → Counters) : (s.abortFrame f).nextJob = s.nextJob := rfl
@[simp] theorem State.abortFrame_carb (f : Counters → Counters) : (s.abortFrame f).carb = s.carb := rfl
@[simp] theorem State.abortFrame_outs (f : Counters → Counters) : (s.abortFrame f).outs = s.outs := rfl
@[simp] theorem State.abortFrame_sense (f : Counters → Counters) : (s.abortFrame f).sense = s.sense := rfl
@[simp] theorem State.abortFrame_rpt (f : Counters → Counters) : (s.abortFrame f).rpt = s.rpt := rfl
@[simp] theorem State.abortFrame_lease (f : Counters → Counters) : (s.abortFrame f).lease = s.lease := rfl
@[simp] theorem State.abortFrame_outbox (f : Counters → Counters) : (s.abortFrame f).outbox = s.outbox := rfl
@[simp] theorem State.abortFrame_choices (f : Counters → Counters) : (s.abortFrame f).choices = s.choices := rfl
@[simp] theorem State.abortFrame_clock (f : Counters → Counters) : (s.abortFrame f).clock = s.clock := rfl
@[simp] theorem State.abortFrame_pending (f : Counters → Counters) : (s.abortFrame f).pending = s.pending := rfl
@[simp] theorem State.chan_abortFrame (f : Counters → Counters) (d : Chan) :
    (s.abortFrame f).chan d = s.chan d := rfl
@[simp] theorem State.entry_abortFrame (f : Counters → Counters) (q : PatId) :
    (s.abortFrame f).entry q = s.entry q := rfl
@[simp] theorem State.gen_abortFrame (f : Counters → Counters) (i : GenId) :
    (s.abortFrame f).gen i = s.gen i := rfl
@[simp] theorem State.carrierClass_abortFrame (f : Counters → Counters) (m : Cls) :
    (s.abortFrame f).carrierClass m = s.carrierClass m := rfl
@[simp] theorem State.senseLine_abortFrame (f : Counters → Counters) (l : Line) :
    (s.abortFrame f).senseLine l = s.senseLine l := rfl

/-! ### quiet -/

@[simp] theorem State.quiet_ptab : s.quiet.ptab = s.ptab := rfl
@[simp] theorem State.quiet_chans : s.quiet.chans = s.chans := rfl
@[simp] theorem State.quiet_nextJob : s.quiet.nextJob = s.nextJob := rfl
@[simp] theorem State.quiet_carb : s.quiet.carb = s.carb := rfl
@[simp] theorem State.quiet_outs : s.quiet.outs = s.outs := rfl
@[simp] theorem State.quiet_sense : s.quiet.sense = s.sense := rfl
@[simp] theorem State.quiet_rpt : s.quiet.rpt = s.rpt := rfl
@[simp] theorem State.quiet_lease : s.quiet.lease = s.lease := rfl
@[simp] theorem State.quiet_outbox : s.quiet.outbox = s.outbox := rfl
@[simp] theorem State.quiet_choices : s.quiet.choices = s.choices := rfl
@[simp] theorem State.quiet_clock : s.quiet.clock = s.clock := rfl
@[simp] theorem State.quiet_pending : s.quiet.pending = s.pending := rfl
@[simp] theorem State.chan_quiet (d : Chan) :
    s.quiet.chan d = s.chan d := rfl
@[simp] theorem State.entry_quiet (q : PatId) :
    s.quiet.entry q = s.entry q := rfl
@[simp] theorem State.gen_quiet (i : GenId) :
    s.quiet.gen i = s.gen i := rfl
@[simp] theorem State.carrierClass_quiet (m : Cls) :
    s.quiet.carrierClass m = s.carrierClass m := rfl
@[simp] theorem State.senseLine_quiet (l : Line) :
    s.quiet.senseLine l = s.senseLine l := rfl

/-! ### What the updates write -/

@[simp] theorem State.chan_setChan (c d : Chan) (ch : Channel) :
    (s.setChan c ch).chan d = if d = c then ch else s.chan d := by
  simp only [State.chan, State.setChan, Fin.getElem_fin, Vector.getElem_set, Fin.ext_iff, eq_comm]

@[simp] theorem State.chan_modChan (c d : Chan) (f : Channel → Channel) :
    (s.modChan c f).chan d = if d = c then f (s.chan d) else s.chan d := by
  unfold State.modChan
  rw [State.chan_setChan]
  split <;> simp_all

@[simp] theorem State.chan_modActive (c d : Chan) (f : Active → Active) :
    (s.modActive c f).chan d = if d = c then { s.chan d with active := (s.chan d).active.map f } else s.chan d :=
  State.chan_modChan s c d _

@[simp] theorem State.chan_mapChans (d : Chan) (f : Chan → Channel → Channel) :
    (s.mapChans f).chan d = f d (s.chan d) := by
  simp [State.chan, State.mapChans]

@[simp] theorem State.entry_setEntry (p q : PatId) (e : Entry) :
    (s.setEntry p e).entry q = if q = p then e else s.entry q := by
  simp only [State.entry, State.setEntry, Fin.getElem_fin, Vector.getElem_set, Fin.ext_iff, eq_comm]

@[simp] theorem State.gen_setGen (g k : GenId) (x : Gen) :
    (s.setGen g x).gen k = if k = g then x else s.gen k := by
  simp only [State.gen, State.setGen, Fin.getElem_fin, Vector.getElem_set, Fin.ext_iff, eq_comm]

@[simp] theorem State.carrierClass_setClass (k m : Cls) (x : Option CarrierClass) :
    (s.setClass k x).carrierClass m = if m = k then x else s.carrierClass m := by
  simp only [State.carrierClass, State.setClass, Fin.getElem_fin, Vector.getElem_set, Fin.ext_iff, eq_comm]

/-- A channel's record is read from the channels alone. -/
theorem State.chan_congr {s t : State} (h : t.chans = s.chans) (c : Chan) : t.chan c = s.chan c := by
  simp [State.chan, h]

/-- A pattern entry is read from the pattern table alone. -/
theorem State.entry_congr {s t : State} (h : t.ptab = s.ptab) (p : PatId) : t.entry p = s.entry p := by
  simp [State.entry, h]

/-- A generator is read from the carrier arbiter alone. -/
theorem State.gen_congr {s t : State} (h : t.carb = s.carb) (g : GenId) : t.gen g = s.gen g := by
  simp [State.gen, h]

@[simp] theorem State.setEntry_load (p : PatId) (e : Entry) : (s.setEntry p e).ptab.load = s.ptab.load := rfl

@[simp] theorem State.setGen_classes (g : GenId) (x : Gen) : (s.setGen g x).carb.classes = s.carb.classes := rfl

@[simp] theorem State.setGen_waitList (g : GenId) (x : Gen) : (s.setGen g x).carb.waitList = s.carb.waitList := rfl

@[simp] theorem State.setWaitList_classes (ws : List Waiter) : (s.setWaitList ws).carb.classes = s.carb.classes := rfl

@[simp] theorem State.setWaitList_gens (ws : List Waiter) : (s.setWaitList ws).carb.gens = s.carb.gens := rfl

@[simp] theorem State.setWaitList_waitList (ws : List Waiter) : (s.setWaitList ws).carb.waitList = ws := rfl

@[simp] theorem State.setClass_gens (k : Cls) (x : Option CarrierClass) :
    (s.setClass k x).carb.gens = s.carb.gens := rfl

@[simp] theorem State.setClass_waitList (k : Cls) (x : Option CarrierClass) :
    (s.setClass k x).carb.waitList = s.carb.waitList := rfl

@[simp] theorem State.report_outbox (p : Producer) (kind : ReportKind) (source : Option (Fin 8)) (job : Half)
    (a b : Byte) :
    (s.report p kind source job a b).outbox = s.outbox ++ [(p, ⟨kind, s.rpt.partTime, source, job, a, b⟩)] := rfl

@[simp] theorem State.jobReport_outbox (c : Chan) (kind : ReportKind) (job : Half) (a b : Byte) :
    (s.jobReport c kind job a b).outbox
      = s.outbox ++ [(.channel c, ⟨kind, s.rpt.partTime, some c, job, a, b⟩)] := rfl

/-- Two vectors with the same elements are the same. -/
theorem State.chans_ext {s t : State} (h : ∀ c, t.chan c = s.chan c) : t.chans = s.chans :=
  Vector.ext fun i hi => by simpa [State.chan] using h ⟨i, hi⟩

end Sys2Proof.Machine
end

