-- ==== Sys2Proof/Laws/Work.lean ====
section
/-! SUPPORT. What the work of one channel can do (`Works`), said once, and that every operation of chapters 2 to 5 on a channel
does no more: the lemmas `works_…`, which later proofs cite in place of unfolding the operations. -/

namespace Sys2Proof.Machine

/-- What a channel's own work can do to its record: the line configuration stays, and no job joins the channel. -/
structure Shrinks (ch ch' : Channel) : Prop where
  config : ch'.config = ch.config
  queue : ch'.queue.Sublist ch.queue
  numbers : ch'.jobNumbers.Sublist ch.jobNumbers

/-- What the work of channel `c` can change: its own record as `Shrinks` says, the reference counts, the generators and the wait
list, and other channels only by granting them a generator; its reports, stamped with the part time, join the event's reports at
their end. -/
structure Works (c : Chan) (s t : State) : Prop where
  nextJob : t.nextJob = s.nextJob
  outs : t.outs = s.outs
  sense : t.sense = s.sense
  rpt : t.rpt = s.rpt
  lease : t.lease = s.lease
  link : t.link = s.link
  choices : t.choices = s.choices
  clock : t.clock = s.clock
  pending : t.pending = s.pending
  classes : t.carb.classes = s.carb.classes
  load : t.ptab.load = s.ptab.load
  entries : ∀ p, (t.entry p).clearRefs = (s.entry p).clearRefs
  others : ∀ d, d ≠ c → t.chan d = s.chan d ∨ ∃ g, t.chan d = (s.chan d).granted g
  own : Shrinks (s.chan c) (t.chan c)
  reports : ∃ more, t.outbox = s.outbox ++ more ∧
    ∀ x ∈ more, x.1 = .channel c ∧ x.2.kind ≠ .overflow ∧ x.2.time = s.rpt.partTime ∧ x.2.source = some c

@[simp] theorem Channel.granted_config (g : GenId) (ch : Channel) : (ch.granted g).config = ch.config := by
  unfold Channel.granted
  split <;> rfl

theorem Channel.granted_granted (g k : GenId) (ch : Channel) : (ch.granted g).granted k = ch.granted g := by
  unfold Channel.granted
  by_cases h : ch.state = .carrierWait <;> simp [h]

@[simp] theorem Entry.clearRefs_addRef (e : Entry) : e.addRef.clearRefs = e.clearRefs := by cases e <;> rfl

@[simp] theorem Entry.clearRefs_dropRef (e : Entry) : e.dropRef.clearRefs = e.clearRefs := by cases e <;> rfl

@[simp] theorem Entry.clearRefs_clearRefs (e : Entry) : e.clearRefs.clearRefs = e.clearRefs := by cases e <;> rfl

theorem Shrinks.refl (ch : Channel) : Shrinks ch ch := ⟨rfl, .refl _, .refl _⟩

theorem Shrinks.trans {a b c : Channel} (h : Shrinks a b) (k : Shrinks b c) : Shrinks a c :=
  ⟨k.config.trans h.config, k.queue.trans h.queue, k.numbers.trans h.numbers⟩

/-- A change of the active job's playing fields, of the state and of the timers. -/
theorem shrinks_fields {ch ch' : Channel} (hc : ch'.config = ch.config) (hq : ch'.queue = ch.queue)
    (ha : ch'.active.map (fun a => a.job.number) = ch.active.map (fun a => a.job.number)) : Shrinks ch ch' := by
  have hn : ch'.jobNumbers = ch.jobNumbers := by
    unfold Channel.jobNumbers
    rw [hq]
    cases h : ch'.active <;> cases h' : ch.active <;> simp_all
  exact ⟨hc, by rw [hq], by rw [hn]⟩

theorem shrinks_granted (g : GenId) (ch : Channel) : Shrinks ch (ch.granted g) := by
  unfold Channel.granted
  split
  · exact shrinks_fields rfl rfl (by cases ch.active <;> simp)
  · exact .refl ch

namespace Works

variable {c : Chan} {s t u : State}

theorem refl (c : Chan) (s : State) : Works c s s := by
  constructor <;> first | rfl | exact .refl _ | (intros; first | rfl | exact .inl rfl) | exact ⟨[], by simp⟩

theorem trans (h : Works c s t) (k : Works c t u) : Works c s u where
  nextJob := k.nextJob.trans h.nextJob
  outs := k.outs.trans h.outs
  sense := k.sense.trans h.sense
  rpt := k.rpt.trans h.rpt
  lease := k.lease.trans h.lease
  link := k.link.trans h.link
  choices := k.choices.trans h.choices
  clock := k.clock.trans h.clock
  pending := k.pending.trans h.pending
  classes := k.classes.trans h.classes
  load := k.load.trans h.load
  entries p := (k.entries p).trans (h.entries p)
  others d hd := by
    rcases k.others d hd with e | ⟨g, e⟩ <;> rcases h.others d hd with e' | ⟨g', e'⟩ <;> rw [e, e']
    · exact .inl rfl
    · exact .inr ⟨g', rfl⟩
    · exact .inr ⟨g, rfl⟩
    · exact .inr ⟨g', Channel.granted_granted g' g _⟩
  own := h.own.trans k.own
  reports := by
    obtain ⟨m, e, p⟩ := h.reports
    obtain ⟨m', e', p'⟩ := k.reports
    exact ⟨m ++ m', by rw [e', e, List.append_assoc], by
      intro x hx
      rcases List.mem_append.1 hx with hx | hx
      exacts [p x hx, h.rpt ▸ p' x hx]⟩

end Works

/-! ### The updates -/

theorem works_modChan (c : Chan) (s : State) (f : Channel → Channel) (h : Shrinks (s.chan c) (f (s.chan c))) :
    Works c s (s.modChan c f) := by
  constructor <;> first | rfl | skip
  · intro p; rfl
  · intro d hd; simp [hd]
  · simpa using h
  · exact ⟨[], by simp⟩

/-- A change of a channel's record that leaves its configuration, its queue and its active job's number. -/
theorem works_fields (c : Chan) (s : State) (f : Channel → Channel) (hc : ∀ ch, (f ch).config = ch.config)
    (hq : ∀ ch, (f ch).queue = ch.queue)
    (ha : ∀ ch, (f ch).active.map (fun a => a.job.number) = ch.active.map (fun a => a.job.number)) :
    Works c s (s.modChan c f) :=
  works_modChan c s f (shrinks_fields (hc _) (hq _) (ha _))

theorem works_modActive (c : Chan) (s : State) (f : Active → Active) (h : ∀ a, (f a).job = a.job) :
    Works c s (s.modActive c f) :=
  works_fields c s _ (by intro; rfl) (by intro; rfl) (by intro ch; cases ch.active <;> simp [h])

theorem works_setEntry (c : Chan) (s : State) (p : PatId) (e : Entry) (h : e.clearRefs = (s.entry p).clearRefs) :
    Works c s (s.setEntry p e) := by
  constructor <;> first | rfl | skip
  · intro q
    rw [State.entry_setEntry]
    split
    · rename_i hq; rw [hq, h]
    · rfl
  · intro d _; exact .inl rfl
  · exact .refl _
  · exact ⟨[], by simp⟩

theorem works_setGen (c : Chan) (s : State) (g : GenId) (x : Gen) : Works c s (s.setGen g x) := by
  constructor <;> first | rfl | skip
  · intro p; rfl
  · intro d _; exact .inl rfl
  · exact .refl _
  · exact ⟨[], by simp⟩

theorem works_setWaitList (c : Chan) (s : State) (ws : List Waiter) : Works c s (s.setWaitList ws) := by
  constructor <;> first | rfl | skip
  · intro p; rfl
  · intro d _; exact .inl rfl
  · exact .refl _
  · exact ⟨[], by simp⟩

theorem works_jobReport (c : Chan) (s : State) (kind : ReportKind) (job : Half) (a b : Byte)
    (hk : kind ≠ .overflow) : Works c s (s.jobReport c kind job a b) := by
  constructor <;> first | rfl | skip
  · intro p; rfl
  · intro d _; exact .inl rfl
  · exact .refl _
  · exact ⟨_, rfl, by simpa using hk⟩

/-- A grant to any channel is part of a channel's work. -/
theorem works_granted (c d : Chan) (s : State) (g : GenId) : Works c s (s.modChan d (Channel.granted g)) := by
  constructor <;> first | rfl | skip
  · intro p; rfl
  · intro e _
    rw [State.chan_modChan]
    split
    · exact .inr ⟨g, rfl⟩
    · exact .inl rfl
  · rw [State.chan_modChan]
    split
    · exact shrinks_granted g _
    · exact .refl _
  · exact ⟨[], by simp⟩

theorem works_addRef (c : Chan) (s : State) (p : PatId) : Works c s (s.addRef p) :=
  works_setEntry c s p _ (by simp)

theorem works_dropRef (c : Chan) (s : State) (p : PatId) : Works c s (s.dropRef p) :=
  works_setEntry c s p _ (by simp)

theorem works_moveRef (c : Chan) (s : State) (p q : PatId) : Works c s (s.moveRef p q) := by
  unfold State.moveRef
  split
  · exact .refl c s
  · exact (works_dropRef c s p).trans (works_addRef c _ q)

/-! ### The carrier arbiter -/

theorem works_foldl_granted (c : Chan) (g : GenId) (cs : List Chan) (s : State) :
    Works c s (cs.foldl (fun s d => s.modChan d (Channel.granted g)) s) := by
  induction cs generalizing s with
  | nil => exact .refl c s
  | cons d cs ih => exact (works_granted c d s g).trans (ih _)

theorem works_grant (c : Chan) (s : State) (g : GenId) : Works c s (s.grant g) := by
  unfold State.grant
  split
  · exact .refl c s
  · exact ((works_setGen c s g _).trans (works_setWaitList c _ _)).trans (works_foldl_granted c g _ _)

theorem works_releaseGen (c : Chan) (s : State) (g : GenId) : Works c s (s.releaseGen g) :=
  (works_setGen c s g _).trans (works_grant c _ g)

theorem works_lastUserLeft (c : Chan) (s : State) (g : GenId) : Works c s (s.lastUserLeft g) := by
  unfold State.lastUserLeft
  split
  · split
    · exact works_releaseGen c s g
    · exact works_setGen c s g _
  · exact .refl c s

theorem works_detach (c : Chan) (s : State) : Works c s (s.detach c) := by
  unfold State.detach
  split
  · exact .refl c s
  · dsimp only
    split
    · exact (works_modActive c s _ (by intro; rfl)).trans (works_lastUserLeft c _ _)
    · exact works_modActive c s _ (by intro; rfl)

theorem works_shutGate (c : Chan) (s : State) : Works c s (s.shutGate c) :=
  ((works_setWaitList c s _).trans
      (works_fields c _ (fun ch => { ch with waitTimer := none }) (by intro; rfl) (by intro; rfl) (by intro; rfl))).trans
    (works_modActive c _ _ (by intro; rfl))

theorem works_attached (c : Chan) (s : State) (g : GenId) (gate : Gate) :
    Works c s (s.modChan c (Channel.attached g gate)) :=
  works_fields c s _ (by intro; rfl) (by intro; rfl)
    (by intro ch; cases h : ch.active <;> simp [Channel.attached, h])

theorem works_join (c : Chan) (s : State) (g : GenId) : Works c s (s.join c g) :=
  (works_setGen c s g _).trans (works_attached c _ _ _)

theorem works_allocate (c : Chan) (s : State) (k : Cls) (g : GenId) : Works c s (s.allocate c k g) :=
  (works_setGen c s g _).trans (works_attached c _ _ _)

theorem works_wait (c : Chan) (s : State) (k : Cls) : Works c s (s.wait c k) :=
  (works_setWaitList c s _).trans (works_fields c _ _ (by intro; rfl) (by intro; rfl)
    (by intro ch; cases h : ch.active <;> simp [Channel.waiting, h]))

theorem works_request (c : Chan) (s : State) (k : Cls) : Works c s (s.request c k) := by
  unfold State.request
  split
  · exact works_join c s _
  · split
    · exact works_allocate c s k _
    · exact works_wait c s k

theorem works_leaveWaitList (c : Chan) (s : State) : Works c s (s.leaveWaitList c) :=
  (works_setWaitList c s _).trans (works_fields c _ _ (by intro; rfl) (by intro; rfl) (by intro; rfl))

theorem works_giveUpCarrier (c : Chan) (s : State) : Works c s (s.giveUpCarrier c) :=
  (works_leaveWaitList c s).trans (works_detach c _)

/-! ### What leaves the queues as they are -/

/-- Every channel's queue is as it was. -/
def SameQueues (s t : State) : Prop :=
  ∀ d, (t.chan d).queue = (s.chan d).queue

theorem SameQueues.trans {s t u : State} (h : SameQueues s t) (k : SameQueues t u) : SameQueues s u :=
  fun d => (k d).trans (h d)

theorem sameQueues_modChan (c : Chan) (s : State) (f : Channel → Channel) (h : ∀ ch, (f ch).queue = ch.queue) :
    SameQueues s (s.modChan c f) := by
  intro d
  rw [State.chan_modChan]
  split
  · exact h _
  · rfl

@[simp] theorem Channel.granted_queue (g : GenId) (ch : Channel) : (ch.granted g).queue = ch.queue := by
  unfold Channel.granted
  split <;> rfl

theorem sameQueues_grant (s : State) (g : GenId) : SameQueues s (s.grant g) := by
  have h : ∀ (cs : List Chan) (s : State),
      SameQueues s (cs.foldl (fun s d => s.modChan d (Channel.granted g)) s) := by
    intro cs
    induction cs with
    | nil => exact fun s d => rfl
    | cons c cs ih => exact fun s => (sameQueues_modChan c s _ (by simp)).trans (ih _)
  unfold State.grant
  split
  · exact fun d => rfl
  · exact h _ _

theorem sameQueues_lastUserLeft (s : State) (g : GenId) : SameQueues s (s.lastUserLeft g) := by
  unfold State.lastUserLeft
  split
  · split
    · exact fun d => sameQueues_grant (s.setGen g .free) g d
    · exact fun d => rfl
  · exact fun d => rfl

theorem sameQueues_detach (c : Chan) (s : State) : SameQueues s (s.detach c) := by
  unfold State.detach
  split
  · exact fun d => rfl
  · dsimp only
    have h : ∀ f, SameQueues s (s.modActive c f) := fun f => sameQueues_modChan c s _ (by intro; rfl)
    split
    · exact (h _).trans (sameQueues_lastUserLeft _ _)
    · exact h _

theorem sameQueues_giveUpCarrier (c : Chan) (s : State) : SameQueues s (s.giveUpCarrier c) := by
  have h : SameQueues s (s.leaveWaitList c) := sameQueues_modChan c (s.setWaitList _) _ (by intro; rfl)
  exact h.trans (sameQueues_detach c _)

theorem sameQueues_endJob (c : Chan) (s : State) (o : JobOutcome) : SameQueues s (s.endJob c o) := by
  unfold State.endJob
  split
  · exact fun d => rfl
  · dsimp only
    have h := (sameQueues_giveUpCarrier c s).trans
      (sameQueues_modChan c _ (fun ch => { ch with active := none, holdRequest := false }) (by intro; rfl))
    split <;> exact h

theorem sameQueues_request (c : Chan) (s : State) (k : Cls) : SameQueues s (s.request c k) := by
  unfold State.request
  split
  · exact sameQueues_modChan c (s.setGen _ _) _ (by intro; rfl)
  · split
    · exact sameQueues_modChan c (s.setGen _ _) _ (by intro; rfl)
    · exact sameQueues_modChan c (s.setWaitList _) _ (by intro; rfl)

theorem sameQueues_markEntry (c : Chan) (s : State) (a : Active) (x : Step) : SameQueues s (s.markEntry c a x) := by
  unfold State.markEntry
  split <;> exact fun d => rfl

theorem sameQueues_enterStep (c : Chan) (s : State) : SameQueues s (s.enterStep c).1 := by
  unfold State.enterStep
  split
  · exact fun d => rfl
  · split
    · exact fun d => rfl
    · split
      · unfold State.enterCarrierStep
        split
        · exact fun d => rfl
        · exact ((sameQueues_modChan c s _ (by intro; rfl)).trans (sameQueues_markEntry c _ _ _)).trans
            (sameQueues_request c _ _)
      · exact (sameQueues_modChan c s _ (by intro; rfl)).trans (sameQueues_markEntry c _ _ _)

/-! ### Jobs and steps -/

theorem works_endJob (c : Chan) (s : State) (o : JobOutcome) : Works c s (s.endJob c o) := by
  unfold State.endJob
  split
  · exact .refl c s
  · rename_i a _
    have e : ∀ u : State, Works c u (u.modChan c fun ch => { ch with active := none, holdRequest := false }) :=
      fun u => works_modChan c u _ ⟨rfl, .refl _, by simp [Channel.jobNumbers]⟩
    have h : Works c s (((s.giveUpCarrier c).modChan c fun ch => { ch with active := none, holdRequest := false }).dropRef
        a.job.pattern) :=
      ((works_giveUpCarrier c s).trans (e _)).trans (works_dropRef c _ _)
    dsimp only
    split
    · exact h.trans (works_jobReport c _ _ _ _ _ (by decide))
    · exact h

theorem shrinks_withoutJob (n : Half) (ch : Channel) : Shrinks ch (ch.withoutJob n) := by
  have h : (dropFromQueue ch.queue n).Sublist ch.queue := List.eraseP_sublist
  exact ⟨rfl, h, (List.Sublist.refl _).append (h.map _)⟩

theorem works_dropJob (c : Chan) (s : State) (j : Job) (r : DropReason) : Works c s (s.dropJob c j r) :=
  ((works_modChan c s _ (shrinks_withoutJob _ _)).trans (works_dropRef c _ _)).trans
    (works_jobReport c _ _ _ _ _ (by decide))

theorem works_dropAll (c : Chan) (s : State) (r : DropReason) : Works c s (s.dropAll c r) := by
  have h : ∀ (js : List Job) (s : State), Works c s (js.foldl (fun s j => s.dropJob c j r) s) := by
    intro js
    induction js with
    | nil => exact fun s => .refl c s
    | cons j js ih => exact fun s => (works_dropJob c s j r).trans (ih _)
  exact h _ s

theorem works_markEntry (c : Chan) (s : State) (a : Active) (x : Step) : Works c s (s.markEntry c a x) := by
  unfold State.markEntry
  split
  · exact works_jobReport c s _ _ _ _ (by decide)
  · exact .refl c s

theorem works_enterStep (c : Chan) (s : State) : Works c s (s.enterStep c).1 := by
  unfold State.enterStep
  split
  · exact .refl c s
  · split
    · exact .refl c s
    · split
      · unfold State.enterCarrierStep
        split
        · exact .refl c s
        · exact ((works_modActive c s _ (by intro; rfl)).trans (works_markEntry c _ _ _)).trans (works_request c _ _)
      · exact (works_fields c s _ (by intro; rfl) (by intro; rfl)
          (by intro ch; cases h : ch.active <;> simp [Channel.enterSteady, h])).trans (works_markEntry c _ _ _)

theorem works_startReport (c : Chan) (s : State) (j : Job) : Works c s (s.startReport c j) := by
  unfold State.startReport
  split
  · exact works_jobReport c _ _ _ _ _ (by decide)
  · exact .refl c s

theorem works_startJob (c : Chan) (s : State) (j : Job) (rest : List Job) (hq : (s.chan c).queue = j :: rest) :
    Works c s (s.startJob c j rest) := by
  refine (works_modChan c s _ ⟨rfl, by simp [Channel.starting, hq], ?_⟩).trans (works_startReport c _ j)
  simp [Channel.starting, Channel.jobNumbers, hq, Job.starting]

theorem State.startJob_queue (c : Chan) (s : State) (j : Job) (rest : List Job) :
    ((s.startJob c j rest).chan c).queue = rest := by
  unfold State.startJob State.startReport
  split <;> simp [Channel.starting]

theorem works_becomeIdle (c : Chan) (s : State) : Works c s (s.modChan c Channel.becomeIdle) :=
  works_modChan c s _ ⟨rfl, List.nil_sublist _, by simp [Channel.becomeIdle, Channel.jobNumbers]⟩

theorem works_decideHead (c : Chan) (q : List Job) (s : State) (hq : (s.chan c).queue = q) :
    Works c s (State.decideHead c q s) := by
  induction q generalizing s with
  | nil => exact works_becomeIdle c s
  | cons j rest ih =>
    unfold State.decideHead
    split
    · have h := (works_startJob c s j rest hq).trans (works_enterStep c _)
      have k := sameQueues_enterStep c (s.startJob c j rest)
      split <;> rename_i e <;> rw [e] at h k
      · exact h
      · refine (h.trans (works_endJob c _ _)).trans (ih _ ?_)
        rw [sameQueues_endJob, k, State.startJob_queue]
    · exact works_modChan c s _ (shrinks_fields rfl hq.symm rfl)

theorem works_headDecision (c : Chan) (s : State) : Works c s (s.headDecision c) :=
  works_decideHead c _ s rfl

theorem works_startHead (c : Chan) (s : State) : Works c s (s.startHead c) := by
  unfold State.startHead
  split
  · exact .refl c s
  · rename_i j rest hq
    have h := (works_startJob c s j rest hq).trans (works_enterStep c _)
    have k := sameQueues_enterStep c (s.startJob c j rest)
    split <;> rename_i e <;> rw [e] at h k
    · exact h
    · refine (h.trans (works_endJob c _ _)).trans (works_decideHead c _ _ ?_)
      rw [sameQueues_endJob, k, State.startJob_queue]

theorem works_afterEnd (c : Chan) (s : State) : Works c s (s.afterEnd c) := by
  unfold State.afterEnd
  split
  · exact works_fields c s _ (by intro; rfl) (by intro; rfl) (by intro; rfl)
  · exact works_headDecision c s

theorem works_finishJob (c : Chan) (s : State) (o : JobOutcome) : Works c s (s.finishJob c o) :=
  (works_endJob c s o).trans (works_afterEnd c _)

theorem works_enterNext (c : Chan) (s : State) : Works c s (s.enterNext c) := by
  have h := works_enterStep c s
  unfold State.enterNext
  split <;> rename_i e <;> rw [e] at h
  · exact h
  · exact h.trans (works_finishJob c _ _)

/-- A job that goes on after a step end keeps its number. -/
theorem State.nextStep_number (s : State) (a next : Active) (h : s.nextStep a = .goesOn next) :
    next.job.number = a.job.number := by
  unfold State.nextStep State.passNext State.finalNext at h
  repeat' split at h
  all_goals first
    | (simp only [StepNext.goesOn.injEq] at h; subst h; rfl)
    | cases h

theorem works_continueStep (c : Chan) (s : State) (a : Active)
    (h : (s.chan c).active.map (fun x => x.job.number) = some a.job.number) : Works c s (s.continueStep c a) := by
  unfold State.continueStep
  split
  · exact works_modChan c s _ (shrinks_fields rfl rfl (by simpa [Channel.withActive] using h.symm))
  · exact (works_modChan c s _ (shrinks_fields rfl rfl (by simpa [Channel.withActive] using h.symm))).trans
      (works_markEntry c _ _ _)

@[simp] theorem State.moveRef_chans (s : State) (p q : PatId) : (s.moveRef p q).chans = s.chans := by
  unfold State.moveRef
  split <;> rfl

@[simp] theorem State.chan_moveRef (s : State) (p q : PatId) (c : Chan) : (s.moveRef p q).chan c = s.chan c :=
  State.chan_congr (by simp) c

theorem works_stepEnd (c : Chan) (s : State) : Works c s (s.stepEnd c) := by
  unfold State.stepEnd
  split
  · exact .refl c s
  · rename_i a ha
    split
    · exact works_finishJob c s _
    · rename_i next hn
      have h : ((s.moveRef a.job.pattern next.job.pattern).chan c).active.map (fun x => x.job.number)
          = some next.job.number := by
        simp [ha, s.nextStep_number a next hn]
      split
      · exact (works_moveRef c s _ _).trans (works_continueStep c _ _ h)
      · exact (((works_moveRef c s _ _).trans (works_modChan c _ _
          (shrinks_fields rfl rfl (by simpa [Channel.withActive] using h.symm)))).trans (works_detach c _)).trans
          (works_enterNext c _)

/-! ### Holding -/

theorem works_heldStep (c : Chan) (s : State) : Works c s (s.heldStep c) := by
  unfold State.heldStep
  split
  · exact .refl c s
  · rename_i a ha
    split
    · exact works_finishJob c s _
    · split
      · split
        · exact works_finishJob c s _
        · rename_i next hn
          exact (works_moveRef c s _ _).trans (works_modChan c _ _
            (shrinks_fields rfl rfl (by simp [Channel.heldAtEntry, ha, s.nextStep_number a next hn])))
      · exact .refl c s

theorem works_becomeHeld (c : Chan) (s : State) (h : HeldFrom) (r : Option ResumePoint) :
    Works c s (s.modChan c (Channel.becomeHeld h r)) :=
  works_fields c s _ (by intro; rfl) (by intro; rfl)
    (by intro ch; cases e : ch.active <;> simp [Channel.becomeHeld, Active.frozenAt, e])

theorem works_holdJob (c : Chan) (s : State) (h : HeldFrom) (r : ResumePoint) : Works c s (s.holdJob c h r) :=
  ((works_giveUpCarrier c s).trans (works_becomeHeld c _ _ _)).trans (works_heldStep c _)

theorem works_holdRequest (c : Chan) (s : State) (b : Bool) :
    Works c s (s.modChan c fun ch => { ch with holdRequest := b }) :=
  works_fields c s _ (by intro; rfl) (by intro; rfl) (by intro; rfl)

theorem works_holdChannel (c : Chan) (s : State) : Works c s (State.holdChannel c s) := by
  unfold State.holdChannel
  split <;> try exact .refl c s
  · exact works_becomeHeld c s _ _
  · exact works_becomeHeld c s _ _
  · split
    · exact works_holdJob c s _ _
    · exact works_holdJob c s _ _
    · exact works_holdRequest c s _
  · exact works_holdJob c s _ _

theorem works_resumeCarrier (c : Chan) (s : State) : Works c s (s.resumeCarrier c) := by
  unfold State.resumeCarrier
  split
  · split
    · exact works_finishJob c s _
    · exact works_request c s _
  · exact .refl c s

theorem works_resumeChannel (c : Chan) (s : State) : Works c s (State.resumeChannel c s) := by
  have h : Works c s (s.modChan c Channel.leaveHeld) :=
    works_fields c s _ (by intro; rfl) (by intro; rfl) (by intro; rfl)
  unfold State.resumeChannel
  split
  · split
    · exact h.trans (works_headDecision c _)
    · exact h.trans (works_fields c _ _ (by intro; rfl) (by intro; rfl)
        (by intro ch; cases e : ch.active <;> simp [Channel.runOn, e]))
    · exact h.trans (works_resumeCarrier c _)
    · exact h.trans (works_enterNext c _)
  · exact works_holdRequest c s _
  · exact .refl c s

theorem works_cycleEndUser (g : GenId) (c : Chan) (s : State) : Works c s (State.cycleEndUser g c s) := by
  unfold State.cycleEndUser
  split
  · exact .refl c s
  · split
    · exact works_attached c s _ _
    · split
      · exact works_holdJob c s _ _
      · split
        · exact works_stepEnd c s
        · exact .refl c s
    · exact .refl c s

/-! ### Commands and timers of a channel -/

theorem works_preempt (c : Chan) (s : State) : Works c s (s.preempt c) := by
  unfold State.preempt
  split
  · exact works_modActive c s _ (by intro; rfl)
  · exact works_finishJob c s _

theorem works_playEffect (c : Chan) (s : State) (p : Bool) : Works c s (s.playEffect c p) := by
  unfold State.playEffect
  split <;> first | exact works_headDecision c s | exact .refl c s | skip
  all_goals
    split
    · exact works_preempt c s
    · exact .refl c s

theorem works_dropAndDecide (c : Chan) (s : State) (j : Job) (r : DropReason) :
    Works c s (s.dropAndDecide c j r) := by
  unfold State.dropAndDecide
  dsimp only
  split
  · exact (works_dropJob c s j r).trans (works_headDecision c _)
  · exact works_dropJob c s j r

theorem works_stopJob (c : Chan) (s : State) (before : Channel) (w : StopWhen) :
    Works c s (s.stopJob c before w) := by
  unfold State.stopJob
  split
  · exact works_endJob c s _
  · split
    · exact works_modActive c s _ (by intro; rfl)
    · exact .refl c s

theorem works_afterStop (c : Chan) (s : State) (before : Channel) (w : StopWhen) (f : Bool) :
    Works c s (s.afterStop c before w f) := by
  unfold State.afterStop
  split
  · exact works_afterEnd c s
  · split
    · exact works_headDecision c s
    · exact .refl c s

theorem works_stopChannel (before : Chan → Channel) (w : StopWhen) (f : Bool) (c : Chan) (s : State) :
    Works c s (State.stopChannel before w f c s) := by
  unfold State.stopChannel
  split
  · exact .refl c s
  · dsimp only
    cases f
    · exact (works_stopJob c s _ w).trans (works_afterStop c _ _ w _)
    · exact ((works_stopJob c s _ w).trans (works_dropAll c _ _)).trans (works_afterStop c _ _ w _)

theorem works_expireWindow (c : Chan) (s : State) : Works c s (s.expireWindow c) := by
  unfold State.expireWindow
  split
  · exact .refl c s
  · exact works_dropAndDecide c s _ _

theorem works_evict (c : Chan) (s : State) (o : JobOutcome) (r : DropReason) (x : ChState) :
    Works c s (s.evict c o r x) :=
  ((works_endJob c s o).trans (works_dropAll c _ r)).trans
    (works_modChan c _ _ ⟨rfl, List.nil_sublist _, by simp [Channel.empty, Channel.jobNumbers]⟩)

theorem works_readback (c : Chan) (s : State) (o : Bool) : Works c s (s.readback c o) := by
  unfold State.readback
  split
  · exact works_modActive c s _ (by intro; rfl)
  · exact works_evict c s _ _ _

end Sys2Proof.Machine
end

