-- ==== Sys2Proof/Laws/Effects.lean ====
section
/-! SUPPORT. What an event can do before its end, whatever channels it reaches (`Effects`), said once for every command and timer
of chapters 2 to 5, 8; and what the end of an event (`settle`) does. -/

namespace Sys2Proof.Machine

/-- What an event that works on channels, in any order, can change: the channels' records as `Shrinks` says, the generators and the
wait list, and the reference counts; its reports, stamped with the part time, join the event's reports. -/
structure Effects (s t : State) : Prop where
  nextJob : t.nextJob = s.nextJob
  outs : t.outs = s.outs
  sense : t.sense = s.sense
  rpt : t.rpt = s.rpt
  lease : t.lease = s.lease
  link : t.link = s.link
  clock : t.clock = s.clock
  pending : t.pending = s.pending
  classes : t.carb.classes = s.carb.classes
  load : t.ptab.load = s.ptab.load
  entries : ∀ p, (t.entry p).clearRefs = (s.entry p).clearRefs
  channels : ∀ d, Shrinks (s.chan d) (t.chan d)
  reports : ∃ more, t.outbox = s.outbox ++ more ∧ ∀ x ∈ more, x.2.kind ≠ .overflow ∧ x.2.time = s.rpt.partTime

namespace Effects

variable {s t u : State}

theorem refl (s : State) : Effects s s := by
  constructor <;> first | rfl | (intros; exact .refl _) | exact ⟨[], by simp⟩

theorem trans (h : Effects s t) (k : Effects t u) : Effects s u where
  nextJob := k.nextJob.trans h.nextJob
  outs := k.outs.trans h.outs
  sense := k.sense.trans h.sense
  rpt := k.rpt.trans h.rpt
  lease := k.lease.trans h.lease
  link := k.link.trans h.link
  clock := k.clock.trans h.clock
  pending := k.pending.trans h.pending
  classes := k.classes.trans h.classes
  load := k.load.trans h.load
  entries p := (k.entries p).trans (h.entries p)
  channels d := (h.channels d).trans (k.channels d)
  reports := by
    obtain ⟨m, e, p⟩ := h.reports
    obtain ⟨m', e', p'⟩ := k.reports
    exact ⟨m ++ m', by rw [e', e, List.append_assoc], by
      intro x hx
      rcases List.mem_append.1 hx with hx | hx
      exacts [p x hx, h.rpt ▸ p' x hx]⟩

theorem of_works {c : Chan} (h : Works c s t) : Effects s t where
  nextJob := h.nextJob
  outs := h.outs
  sense := h.sense
  rpt := h.rpt
  lease := h.lease
  link := h.link
  clock := h.clock
  pending := h.pending
  classes := h.classes
  load := h.load
  entries := h.entries
  channels d := by
    by_cases hd : d = c
    · subst hd; exact h.own
    · rcases h.others d hd with e | ⟨g, e⟩ <;> rw [e]
      exacts [.refl _, shrinks_granted g _]
  reports := by
    obtain ⟨m, e, p⟩ := h.reports
    exact ⟨m, e, fun x hx => ⟨(p x hx).2.1, (p x hx).2.2.1⟩⟩

end Effects

theorem effects_report (s : State) (p : Producer) (kind : ReportKind) (source : Option (Fin 8)) (job : Half) (a b : Byte)
    (h : kind ≠ .overflow) : Effects s (s.report p kind source job a b) := by
  constructor <;> first | rfl | (intros; exact .refl _) | exact ⟨_, rfl, by simpa using h⟩

theorem effects_foldl {α : Type} (f : State → α → State) (h : ∀ s x, Effects s (f s x)) (xs : List α) (s : State) :
    Effects s (xs.foldl f s) := by
  induction xs generalizing s with
  | nil => exact .refl s
  | cons x xs ih => exact (h s x).trans (ih _)

theorem State.ordered_snd {α : Type} (s : State) (xs : List α) :
    (s.ordered xs).2 = s ∨ (s.ordered xs).2 = { s with choices := s.choices + 1 } := by
  unfold State.ordered
  split
  · exact .inl rfl
  · exact .inr rfl

theorem effects_choices (s : State) (n : Nat) : Effects s { s with choices := n } := by
  constructor <;> first | rfl | (intros; exact .refl _) | exact ⟨[], by simp⟩

theorem effects_forEach {α : Type} (s : State) (xs : List α) (f : α → State → State) (h : ∀ x u, Effects u (f x u)) :
    Effects s (s.forEach xs f) := by
  refine Effects.trans ?_ (effects_foldl _ (fun u x => h x u) _ _)
  rcases s.ordered_snd xs with e | e <;> rw [e]
  exacts [.refl s, effects_choices s _]

/-- A forced close works on channels and generators (R93). -/
theorem effects_forceClose (s : State) (cs : List Chan) : Effects s (s.forceClose cs) :=
  (effects_foldl _ (fun u c => .of_works (works_shutGate c u)) cs s).trans
    (effects_forEach _ _ _ fun g u => .of_works (works_lastUserLeft 0 u g))

theorem effects_evictAll (cs : List Chan) (o : JobOutcome) (r : DropReason) (x : ChState) (s : State) :
    Effects s (s.evictAll cs o r x) :=
  (effects_forceClose s cs).trans (effects_forEach _ _ _ fun c u => .of_works (works_evict c u o r x))

/-! ### The events -/

theorem effects_cycleEnd (s : State) (g : GenId) : Effects s (s.cycleEnd g) := by
  unfold State.cycleEnd
  split
  · exact .refl s
  · exact .of_works (works_releaseGen 0 s g)
  · exact (Effects.of_works (works_setGen 0 s g _)).trans
      (effects_forEach _ _ _ fun c u => .of_works (works_cycleEndUser g c u))

theorem effects_reportEdge (s : State) (e : Line × Bool) : Effects s (s.reportEdge e) := by
  unfold State.reportEdge
  split
  · exact effects_report s _ _ _ _ _ _ (by decide)
  · exact .refl s

/-- A sample writes the lines' records, and then its edges work on the channels (R113, R115). -/
theorem effects_sampleLines (s : State) (levels : BitVec 8) :
    Effects { s with sense := ⟨Vector.ofFn fun l => (s.senseLine l).sample (levels.getLsbD l.val), 0⟩ }
      (s.sampleLines levels) := by
  unfold State.sampleLines
  dsimp only
  exact (effects_foldl _ effects_reportEdge _ _).trans
    (effects_forEach _ _ _ fun c u => .of_works (works_startHead c u))

/-- Lease expiry makes the lease EXPIRED, and then works on the channels (R142, R143). -/
theorem effects_expireLease (s : State) :
    Effects { s with lease := { s.lease with state := .expired } } s.expireLease := by
  unfold State.expireLease
  exact (effects_evictAll _ _ _ _ _).trans (effects_report _ _ _ _ _ _ _ (by decide))

theorem effects_hold (mask : Byte) (s : State) : Effects s (s.forEach (maskChans mask) State.holdChannel) :=
  effects_forEach s _ _ fun c u => .of_works (works_holdChannel c u)

theorem effects_resume (mask : Byte) (s : State) : Effects s (s.forEach (maskChans mask) State.resumeChannel) :=
  effects_forEach s _ _ fun c u => .of_works (works_resumeChannel c u)

theorem effects_withdrawWaiters (cs : List Chan) (s : State) : Effects s (s.withdrawWaiters cs) :=
  effects_foldl _ (fun u c => .of_works (works_leaveWaitList c u)) _ s

theorem effects_stop (mask : Byte) (w : StopWhen) (f : Bool) (s : State) :
    Effects s ((s.withdrawWaiters (maskChans mask)).forEach (maskChans mask) (State.stopChannel s.chan w f)) :=
  (effects_withdrawWaiters _ s).trans (effects_forEach _ _ _ fun c u => .of_works (works_stopChannel s.chan w f c u))

theorem effects_startHeads (cs : List Chan) (s : State) : Effects s (s.forEach cs fun c t => t.startHead c) :=
  effects_forEach s _ _ fun c u => .of_works (works_startHead c u)

theorem effects_finishAll (cs : List Chan) (o : JobOutcome) (s : State) :
    Effects s (cs.foldl (fun t c => t.finishJob c o) s) :=
  effects_foldl _ (fun u c => .of_works (works_finishJob c u o)) cs s

/-! ### The end of an event -/

section Settle

variable (s : State)

theorem State.takenReports_snd :
    s.takenReports.2 = s ∨ s.takenReports.2 = { s with choices := s.choices + 1 } := by
  unfold State.takenReports
  split
  · exact .inl rfl
  · exact .inr rfl

@[simp] theorem State.settle_ptab : s.settle.ptab = s.ptab := by
  rcases s.takenReports_snd with h | h <;> simp [State.settle, State.flushReports, h]

@[simp] theorem State.settle_chans : s.settle.chans = s.chans := by
  rcases s.takenReports_snd with h | h <;> simp [State.settle, State.flushReports, h]

@[simp] theorem State.settle_nextJob : s.settle.nextJob = s.nextJob := by
  rcases s.takenReports_snd with h | h <;> simp [State.settle, State.flushReports, h]

@[simp] theorem State.settle_carb : s.settle.carb = s.carb := by
  rcases s.takenReports_snd with h | h <;> simp [State.settle, State.flushReports, h]

@[simp] theorem State.settle_sense : s.settle.sense = s.sense := by
  rcases s.takenReports_snd with h | h <;> simp [State.settle, State.flushReports, h]

@[simp] theorem State.settle_lease : s.settle.lease = s.lease := by
  rcases s.takenReports_snd with h | h <;> simp [State.settle, State.flushReports, h]

@[simp] theorem State.settle_link : s.settle.link = s.link := by
  rcases s.takenReports_snd with h | h <;> simp [State.settle, State.flushReports, h]

@[simp] theorem State.settle_clock : s.settle.clock = s.clock := by
  rcases s.takenReports_snd with h | h <;> simp [State.settle, State.flushReports, h]

@[simp] theorem State.settle_pending : s.settle.pending = s.pending := by
  rcases s.takenReports_snd with h | h <;> simp [State.settle, State.flushReports, h]

@[simp] theorem State.settle_outbox : s.settle.outbox = [] := rfl

@[simp] theorem State.chan_settle (c : Chan) : s.settle.chan c = s.chan c :=
  State.chan_congr (by simp) c

@[simp] theorem State.entry_settle (p : PatId) : s.settle.entry p = s.entry p :=
  State.entry_congr (by simp) p

@[simp] theorem State.gen_settle (g : GenId) : s.settle.gen g = s.gen g :=
  State.gen_congr (by simp) g

@[simp] theorem State.carrierClass_settle (k : Cls) : s.settle.carrierClass k = s.carrierClass k := by
  simp [State.carrierClass]

/-- The level of a line depends on the channel, its pattern and its generator alone (R100). -/
theorem State.drivenLevel_congr {s t : State} (hc : t.chans = s.chans) (hp : t.ptab = s.ptab) (hg : t.carb = s.carb)
    (c : Chan) : t.drivenLevel c = s.drivenLevel c := by
  simp only [State.drivenLevel, State.level, State.playingLevel, State.currentStep, State.chan_congr hc,
    State.entry_congr hp, State.gen_congr hg]

theorem State.settle_outs (c : Chan) : s.settle.outs[c] = s.drivenLevel c := by
  have h : s.settle.outs[c] = s.flushReports.decideAttention.drivenLevel c := by
    simp [State.settle, State.driveLines]
  rw [h]
  exact State.drivenLevel_congr (by rcases s.takenReports_snd with h | h <;> simp [State.flushReports, h])
    (by rcases s.takenReports_snd with h | h <;> simp [State.flushReports, h])
    (by rcases s.takenReports_snd with h | h <;> simp [State.flushReports, h]) c

theorem State.settle_attention : s.settle.rpt.attention = s.settle.rpt.pulls := rfl

/-- An event without reports leaves RPT as it is, with ATTN_N decided again. -/
theorem State.settle_rpt_of_outbox_nil (h : s.outbox = []) :
    s.settle.rpt = { s.rpt with attention := s.rpt.pulls } := by
  simp [State.settle, State.decideAttention, State.flushReports, State.takenReports, h, oneProducer]

/-- Every event leaves the state settled. -/
theorem State.settled_settle : s.settle.Settled :=
  ⟨rfl, fun c => (s.settle_outs c).trans (State.drivenLevel_congr (by simp) (by simp) (by simp) c).symm, rfl⟩

/-- The end of an event changes nothing in a settled state. -/
theorem State.settle_of_settled (h : s.Settled) : s.settle = s := by
  have hr : s.rpt = { s.rpt with attention := s.rpt.pulls } := by
    rw [← h.attention]
  have ho : s.outs = Vector.ofFn fun c => s.drivenLevel c :=
    Vector.ext fun i hi => by simpa using h.outs ⟨i, hi⟩
  have hf : s.flushReports = s := by
    have e : s.takenReports = ([], s) := by simp [State.takenReports, h.outbox, oneProducer]
    have k : ∀ u : State, u.outbox = [] → { u with outbox := [] } = u := by
      intro u hu
      cases u
      cases hu
      rfl
    rw [State.flushReports, e]
    exact k s h.outbox
  rw [State.settle, hf]
  have hd : s.decideAttention = s := by
    rw [State.decideAttention, ← hr]
  rw [hd, State.driveLines, ← ho]

end Settle

end Sys2Proof.Machine
end

