-- ==== Sys2Proof/Laws/Owners.lean ====
section
/-! SUPPORT. What the owning blocks' executions can do: the refusals, and for each block of the state the commands that write it. -/

namespace Sys2Proof.Machine

@[simp] theorem refuse_state (s : State) (x : Status) : (refuse s x).state = s := rfl

@[simp] theorem refuse_reset (s : State) (x : Status) : (refuse s x).reset = none := rfl

@[simp] theorem refuse_payload (s : State) (x : Status) : (refuse s x).payload = [x.code] := rfl

@[simp] theorem refuseSequence_state (s : State) (n : Nat) : (refuseSequence s n).state = s := rfl

@[simp] theorem refuseSequence_reset (s : State) (n : Nat) : (refuseSequence s n).reset = none := rfl

@[simp] theorem answerOk_state (s : State) (fields : List Byte) : (answerOk s fields).state = s := rfl

@[simp] theorem answerOk_reset (s : State) (fields : List Byte) : (answerOk s fields).reset = none := rfl

@[simp] theorem answerOk_payload (s : State) (fields : List Byte) : (answerOk s fields).payload = statusOk :: fields := rfl

theorem ownerCancel_effects (channel : Byte) (job : Half) (s : State) : Effects s (ownerCancel channel job s).state := by
  unfold ownerCancel
  repeat' split
  all_goals first
    | exact .refl s
    | exact .of_works (works_dropAndDecide _ s _ _)

theorem ownerStop_effects (mask boundary flush : Byte) (s : State) :
    Effects s (ownerStop mask boundary flush s).state := by
  unfold ownerStop
  repeat' split
  all_goals first
    | exact .refl s
    | exact effects_stop mask _ _ s

theorem ownerHold_effects (mask : Byte) (s : State) : Effects s (ownerHold mask s).state := by
  unfold ownerHold
  split
  · exact .refl s
  · exact effects_hold mask s

theorem ownerResume_effects (mask : Byte) (s : State) : Effects s (ownerResume mask s).state := by
  unfold ownerResume
  split
  · exact .refl s
  · exact effects_resume mask s

theorem ownerGo_effects (mask : Byte) (s : State) : Effects s (ownerGo mask s).state := by
  unfold ownerGo
  split
  · exact .refl s
  · exact effects_startHeads _ s

/-- CAR_CLEAR changes nothing, or undefines the class and ends jobs (R78). -/
theorem ownerCarClear_effects (cls : Byte) (s : State) :
    (ownerCarClear cls s).state = s ∨ ∃ k, Effects (s.setClass k none) (ownerCarClear cls s).state := by
  unfold ownerCarClear
  repeat' split
  all_goals first
    | exact .inl rfl
    | exact .inr ⟨_, effects_finishAll _ _ _⟩

/-- CH_DISABLE changes nothing, makes channels without jobs OFF, or works on channels with force (R103, R104). -/
theorem ownerChDisable_effects (mask force : Byte) (s : State) :
    (ownerChDisable mask force s).state = s ∨
    (((maskChans mask).any fun c => (s.chan c).hasJob) = false ∧
      (ownerChDisable mask force s).state = s.mapChans fun c ch =>
        if mask.getLsbD c.val && decide (ch.state ≠ .off) then Channel.empty .off ch.config else ch) ∨
    Effects s (ownerChDisable mask force s).state := by
  unfold ownerChDisable disableIdle disableForce
  repeat' split
  all_goals first
    | exact .inl rfl
    | exact .inr (.inr (effects_evictAll _ _ _ _ s))
    | exact .inr (.inl ⟨Bool.eq_false_of_not_eq_true ‹¬ _›, rfl⟩)

/-- PLAY changes nothing, or accepts a job: one joins a queue, and the channel goes on (R29). -/
theorem ownerPlay_effects (p : PlayFields) (s : State) :
    (ownerPlay p s).state = s ∨
    ∃ c j, playJob? p = some (c, j) ∧ s.playRefusal c j.pattern = none ∧
      (ownerPlay p s).state = s.acceptPlay c { j with number := s.allocatedNumber } ∧
      Effects (s.enqueue c { j with number := s.allocatedNumber }) (ownerPlay p s).state := by
  unfold ownerPlay
  split
  · exact .inl rfl
  · rename_i c j h
    split
    · exact .inl rfl
    · rename_i hr
      exact .inr ⟨c, j, h, hr, rfl, .of_works (works_playEffect c _ _)⟩

/-! ### RESET OUTPUTS taking effect, block by block (R180) -/

section Resets

variable (s : State)

@[simp] theorem State.resetOutputs_rpt : s.resetOutputs.rpt = s.rpt := by
  simp [State.resetOutputs]

@[simp] theorem State.resetOutputs_sense : s.resetOutputs.sense = s.sense := by
  simp [State.resetOutputs]

@[simp] theorem State.resetOutputs_link : s.resetOutputs.link = s.link := by
  simp [State.resetOutputs]

@[simp] theorem State.resetOutputs_nextJob : s.resetOutputs.nextJob = s.nextJob := by
  simp [State.resetOutputs]

@[simp] theorem State.resetOutputs_clock : s.resetOutputs.clock = s.clock := by
  simp [State.resetOutputs]

@[simp] theorem State.resetOutputs_pending : s.resetOutputs.pending = s.pending := by
  simp [State.resetOutputs]

@[simp] theorem State.resetOutputs_choices : s.resetOutputs.choices = s.choices := by
  simp [State.resetOutputs]

@[simp] theorem State.resetOutputs_lease : s.resetOutputs.lease = s.lease.afterOutputsReset := by
  simp [State.resetOutputs]

@[simp] theorem State.chan_resetOutputs (c : Chan) :
    s.resetOutputs.chan c
      = Channel.empty (if (s.chan c).state = .off then .off else .idle) (s.chan c).config := by
  simp [State.resetOutputs, State.chan, State.mapChans]

@[simp] theorem State.entry_resetOutputs (p : PatId) : s.resetOutputs.entry p = (s.entry p).clearRefs := by
  simp [State.resetOutputs, State.entry]

@[simp] theorem State.resetOutputs_load : s.resetOutputs.ptab.load = s.ptab.load := by
  simp [State.resetOutputs]

@[simp] theorem State.resetOutputs_waitList : s.resetOutputs.carb.waitList = [] := by
  simp [State.resetOutputs]

@[simp] theorem State.resetOutputs_classes : s.resetOutputs.carb.classes = s.carb.classes := by
  simp [State.resetOutputs]

@[simp] theorem State.gen_resetOutputs (g : GenId) : s.resetOutputs.gen g = .free := by
  simp [State.resetOutputs, State.gen]

@[simp] theorem State.resetOutputs_outbox :
    s.resetOutputs.outbox
      = s.outbox ++ [(.unit, ⟨.outputsReset, s.rpt.partTime, none, 0#16, byteOf s.jobCount, 0x00#8⟩)] := by
  simp [State.resetOutputs]

end Resets

end Sys2Proof.Machine
end

