-- ==== Sys2Proof/Laws/Kept.lean ====
section
/-! SUPPORT. The induction over what a step can do, packaged once: an invariant that the parts of a step keep (`Kept`) is kept by
every command, every event and every step. -/

namespace Sys2Proof.Machine

/-- A command row is its command handed to the dispatcher (R158). -/
theorem exec_of_request {i : Instr} {v : Via} {r : Request} (h : i.request = some (v, r)) (s : State) :
    exec i s = runCommand v r s := by
  cases i <;> cases h <;> rfl

/-- The parts of a step that an invariant must be shown to survive. -/
structure Kept (P : State → Prop) : Prop where
  link : ∀ s l, P s → P { s with link := l }
  pending : ∀ s q, P s → P { s with pending := q }
  renew : ∀ s, P s → P s.renewLease
  settle : ∀ s, P s → P s.settle
  owner : ∀ r tag s, P s → P (owner r tag s).state
  resetOutputs : ∀ s, P s → P s.resetOutputs
  hardReset : ∀ a r x s, P s → P (s.hardReset a r x)
  abandonLoad : ∀ s, s.loadExpired = true → P s → P s.abandonLoad
  expireWindow : ∀ s c, (s.chan c).windowExpired = true → P s → P (s.expireWindow c)
  stepEnd : ∀ s c, (s.chan c).stepExpired = true → P s → P (s.stepEnd c)
  cycleEnd : ∀ s g, s.cycleDue g = true → P s → P (s.cycleEnd g)
  expireWait : ∀ s c, (s.chan c).waitExpired = true → P s → P (s.finishJob c .carrierTimeout)
  readback : ∀ s c o, (s.chan c).readbackDue = true → P s → P (s.readback c o)
  sample : ∀ s l, P s → P (s.sampleLines l)
  holdAge : ∀ s, P s → P { s with rpt := { s.rpt with ageReached := true } }
  expireLease : ∀ s, s.lease.due = true → P s → P s.expireLease
  endHigh : ∀ s g, P s → P (s.setGen g (s.gen g).endHigh)
  tick : ∀ s, P s → P s.tick

namespace Kept

variable {P : State → Prop} (K : Kept P)

include K

theorem answerFrame (f : Frame) (s : State) (h : P s) : P (answerFrame f s).state := by
  unfold Machine.answerFrame
  split
  · exact K.owner _ _ s h
  · exact h

theorem reply (f : Frame) (payload : List Byte) (reset : Option Scope) (s : State) (h : P s) :
    P (s.reply f payload reset) :=
  K.link s _ h

theorem execute (f : Frame) (s : State) (h : P s) : P (s.execute f) := by
  unfold State.execute
  split
  · split
    · exact K.answerFrame f s h
    · exact h
  · split
    · exact K.link s _ h
    · exact K.reply f _ _ _ (K.answerFrame f s h)

theorem accept (f : Frame) (s : State) (h : P s) : P (s.accept f) := by
  unfold State.accept
  split
  · exact K.execute f s h
  · split <;> exact K.link s _ h

theorem command (v : Via) (r : Request) (s : State) (h : P s) : P (s.command v r) := by
  unfold State.command
  split
  · exact K.accept _ s h
  · exact h

theorem decideFrame (f : Frame) (s : State) (h : P s) : P (s.decideFrame f) := by
  unfold State.decideFrame
  split
  · exact K.link s _ h
  · split
    · exact K.accept f _ (K.renew s h)
    · exact h

theorem receiveByte (b : Byte) (s : State) (h : P s) : P (s.receiveByte b) := by
  unfold State.receiveByte
  repeat' split
  all_goals first
    | exact h
    | exact K.link s _ h
    | exact K.decideFrame _ _ (K.link s _ h)

theorem receiveBad (s : State) (h : P s) : P s.receiveBad := by
  unfold State.receiveBad
  split
  · exact h
  · exact K.link s _ h

theorem endReply (x : BitVec 8) (s : State) (h : P s) : P (s.endReply x) := by
  have buffered : ∀ t : State, P t → P t.executeBuffered := by
    intro t ht
    unfold State.executeBuffered
    split
    · exact ht
    · exact K.execute _ _ (K.link t _ ht)
  have quiet : P s.quiet := K.link s _ h
  unfold State.endReply
  split
  · exact h
  · apply buffered
    unfold State.takeReset
    split
    · exact quiet
    · exact K.settle _ (K.resetOutputs _ quiet)
    · exact K.hardReset _ _ x _ quiet

theorem runCommand (v : Via) (r : Request) (s t : State) (h : P s) (e : runCommand v r s = .next t) : P t := by
  cases e
  exact K.settle _ (K.command v r s h)

theorem event (due : Bool) (s t : State) (h : P s) (k : due = true → P t) : P (if due then t.settle else s) := by
  split
  · exact K.settle _ (k ‹_›)
  · exact h

/-- Every command and every event keeps the invariant. -/
theorem exec (i : Instr) (s t : State) (h : P s) (e : exec i s = .next t) : P t := by
  rcases hq : i.request with _ | ⟨v, r⟩
  case some => exact K.runCommand v r s t h ((exec_of_request hq s).symm.trans e)
  cases i <;> first | cases hq; done | skip
  case hardwareReset a r x =>
    cases e
    exact K.hardReset a r x s h
  case characterReceived b stopHigh =>
    cases e
    refine K.event true s _ h fun _ => ?_
    cases stopHigh
    · exact K.receiveBad s h
    · exact K.receiveByte b s h
  case gapAbort => cases e; exact K.event _ s _ h fun _ => K.link s _ h
  case frameReceived f => cases e; exact K.event true s _ h fun _ => K.decideFrame f _ (K.link s _ h)
  case replyEnd x => cases e; exact K.event _ s _ h fun _ => K.endReply x s h
  case loadTimerExpiry => cases e; exact K.event _ s _ h fun d => K.abandonLoad s d h
  case triggerWindowExpiry c => cases e; exact K.event _ s _ h fun d => K.expireWindow s c d h
  case stepEnd c => cases e; exact K.event _ s _ h fun d => K.stepEnd s c d h
  case cycleEnd g => cases e; exact K.event _ s _ h fun d => K.cycleEnd s g d h
  case carrierWaitExpiry c => cases e; exact K.event _ s _ h fun d => K.expireWait s c d h
  case readbackSample c o => cases e; exact K.event _ s _ h fun d => K.readback s c o d h
  case senseSample l => cases e; exact K.event _ s _ h fun _ => K.sample s l h
  case holdAgeReached => cases e; exact K.event _ s _ h fun _ => K.holdAge s h
  case leaseExpiry => cases e; exact K.event _ s _ h fun d => K.expireLease s d h
  case highPortionEnd g => cases e; exact K.event _ s _ h fun _ => K.endHigh s g h
  case startBit => cases e; exact K.event true s _ h fun _ => K.link s _ h

/-- Every step keeps the invariant. -/
theorem step (s t : State) (h : P s) (e : step s = .next t) : P t := by
  unfold Machine.step at e
  split at e
  · cases e
    exact K.tick s h
  · exact K.exec _ _ t (K.pending s _ h) e

end Kept

end Sys2Proof.Machine
end

