-- ==== Sys2Proof/Laws/Answer.lean ====
section
/-! SUPPORT. What a command row answers when its command is executed at once, said once for all the rows: the frame spells the
command again, the owning block executes it, and LINK answers. -/

namespace Sys2Proof.Machine

theorem joinHalf_split (h : Half) : joinHalf (h.extractLsb' 8 8) (h.extractLsb' 0 8) = h := by
  unfold joinHalf
  rw [BitVec.extractLsb'_append_extractLsb'_eq_extractLsb' (by omega)]
  simp

theorem rawSteps_flatMap (records : List RawStep) : rawSteps? (records.flatMap rawStepBytes) = some records := by
  induction records with
  | nil => rfl
  | cons r rs ih => simp [rawStepBytes, halfBytes, rawSteps?, ih, joinHalf_split]

/-- The dispatcher reads from a command's code and payload the command itself (R169). -/
theorem parseRequest_payload (r : Request) (h : r.Fits) : parseRequest r.code r.payload = .ok r := by
  cases r with
  | patSteps id first records =>
    simp only [Request.Fits] at h
    simp [parseRequest, Request.code, Request.payload, parseSteps, stepsRequest, rawSteps_flatMap, h]
  | _ => simp [parseRequest, Request.code, Request.payload, exactly0, exactly1, exactly2, exactly3, parseOpen, parseCarSet,
      parseConfig, parsePlay, halfBytes, joinHalf_split]

variable {i : Instr} {v : Via} {r : Request} {s : State}

/-- A command that is executed at once: the owning block executes it, LINK answers, and the event ends (R159). -/
theorem exec_of_executes (hi : i.request = some (v, r)) (hr : r.Fits) (h : s.Executes v r) :
    exec i s = .next ((owner r v.tag s).state.reply (commandFrame v r) (owner r v.tag s).payload
      (owner r v.tag s).reset).settle := by
  have ha : answerFrame (commandFrame v r) s = owner r v.tag s := by
    simp [answerFrame, commandFrame, parseRequest_payload r hr]
  rw [exec_of_request hi]
  simp only [runCommand, State.command, h.forUs, if_true, State.accept, h.quiet, State.execute, commandFrame, h.single]
  simp only [Bool.false_eq_true, if_false]
  have hc : s.link.cachedReply (commandFrame v r) = none := h.fresh
  simp only [commandFrame] at hc ha ⊢
  simp [hc, State.answer, ha]

/-- LINK after the answer to a command whose execution left LINK alone (R160, R162). -/
theorem reply_link {t : State} (ht : t.link = s.link) (payload : List Byte) (reset : Option Scope) :
    (t.reply (commandFrame v r) payload reset).link = s.link.answering v r payload reset := by
  simp [State.reply, State.send, State.cacheReply, HostLink.answering, replyBytes, commandFrame, ht]

/-- The lines of a settled state stay as they are through an event that leaves channels, patterns and generators alone. -/
theorem State.Settled.settle_outs {s t : State} (hs : s.Settled) (hc : t.chans = s.chans) (hp : t.ptab = s.ptab)
    (hg : t.carb = s.carb) : t.settle.outs = s.outs :=
  Vector.ext fun i hi => by
    have h := t.settle_outs ⟨i, hi⟩
    rw [State.drivenLevel_congr hc hp hg] at h
    exact h.trans (hs.outs ⟨i, hi⟩).symm

/-- RPT stays as it is through an event without reports that leaves it alone. -/
theorem State.Settled.settle_rpt {s t : State} (hs : s.Settled) (ho : t.outbox = []) (hr : t.rpt = s.rpt) :
    t.settle.rpt = s.rpt := by
  rw [t.settle_rpt_of_outbox_nil ho, hr, ← hs.attention]

theorem State.settle_choices_of_outbox_nil {t : State} (ho : t.outbox = []) : t.settle.choices = t.choices := by
  simp [State.settle, State.decideAttention, State.driveLines, State.flushReports, State.takenReports, ho, oneProducer]

theorem State.settled_reply (hs : s.Settled) (f : Frame) (payload : List Byte) (reset : Option Scope) :
    (s.reply f payload reset).Settled :=
  ⟨hs.outbox, fun c => hs.outs c, hs.attention⟩

/-- A refused command changes nothing but LINK (R170). -/
theorem exec_refused (hs : s.Settled) (hi : i.request = some (v, r)) (hr : r.Fits) (h : s.Executes v r) {status : Status}
    {more : List Byte} (ho : owner r v.tag s = ⟨s, status.code :: more, none⟩) :
    ∃ t, exec i s = .next t ∧ s.Refused t v r status more := by
  refine ⟨_, exec_of_executes hi hr h, ?_⟩
  rw [ho, State.settle_of_settled _ (State.settled_reply hs _ _ _)]
  refine ⟨reply_link rfl _ _, ?_, rfl, rfl⟩
  intro b hb
  cases b <;> first | rfl | simp at hb

/-- The end of an event does not read LINK. -/
theorem State.settle_reply (u : State) (f : Frame) (payload : List Byte) (reset : Option Scope) :
    (u.reply f payload reset).settle = u.settle.reply f payload reset := by
  have hd : ∀ (w : State) (x : HostLink), State.settle { w with link := x } = { w.settle with link := x } := by
    intro w x
    unfold State.settle State.flushReports State.takenReports
    by_cases h : oneProducer w.outbox = true <;> simp only [h] <;> rfl
  have hr : ∀ w : State, w.reply f payload reset = { w with link := (w.reply f payload reset).link } := fun _ => rfl
  rw [hr u, hd, hr u.settle]
  simp [State.reply, State.send, State.cacheReply]

/-- A command that the owning block answers OK: what the owner's state is at the end of the event, with the reply. -/
theorem exec_answered (hi : i.request = some (v, r)) (hr : r.Fits) (h : s.Executes v r) {u : State} {fields : List Byte}
    {changed : List Block} (ho : owner r v.tag s = answerOk u fields) (hl : u.link = s.link)
    (hk : s.KeepsAllBut u.settle (.link :: changed)) :
    ∃ t, exec i s = .next t ∧ s.Answered t v r fields changed ∧
      t = { u.settle with link := s.link.answering v r (statusOk :: fields) none } := by
  have hlink : u.settle.link = s.link := by simp [hl]
  have e : u.settle.reply (commandFrame v r) (statusOk :: fields) none
      = { u.settle with link := s.link.answering v r (statusOk :: fields) none } := by
    rw [← reply_link hlink]
    rfl
  refine ⟨_, exec_of_executes hi hr h, ?_, ?_⟩ <;> rw [ho, State.settle_reply]
  · refine ⟨reply_link hlink _ _, ?_, State.settled_reply u.settled_settle _ _ _⟩
    refine ⟨fun b hb => ?_, hk.2.1, hk.2.2⟩
    have := hk.1 b hb
    cases b <;> first | exact this | simp at hb
  · exact e

end Sys2Proof.Machine
end

