-- ==== Sys2Proof/Laws/Order.lean ====
section
/-! SUPPORT. What a free order is: a permutation of what it orders; and a merge of reports is one too (R128). -/

namespace Sys2Proof.Machine

theorem mod_length_lt {α : Type} (seed : Nat) {xs : List α} (h : xs ≠ []) : seed % xs.length < xs.length :=
  Nat.mod_lt _ (List.length_pos_of_ne_nil h)

theorem cons_eraseIdx_perm {α : Type} {xs : List α} {n : Nat} {x : α} (h : xs[n]? = some x) :
    (x :: xs.eraseIdx n).Perm xs := by
  obtain ⟨hn, rfl⟩ := List.getElem?_eq_some_iff.1 h
  exact List.getElem_cons_eraseIdx_perm hn

/-- A drawn order is a permutation. -/
theorem shuffle_perm {α : Type} (n seed : Nat) (xs : List α) (h : xs.length ≤ n) : (shuffle n seed xs).Perm xs := by
  induction n generalizing seed xs with
  | zero =>
    cases List.length_eq_zero_iff.1 (Nat.le_zero.1 h)
    exact .refl _
  | succ n ih =>
    unfold shuffle
    split
    · rename_i hx
      have : xs = [] := by
        by_contra hne
        simp at hx
        exact absurd (mod_length_lt seed hne) (Nat.not_lt.2 hx)
      rw [this]
    · rename_i x hx
      have hl : (xs.eraseIdx (seed % xs.length)).length ≤ n := by
        have := (cons_eraseIdx_perm hx).length_eq
        simp only [List.length_cons] at this
        omega
      exact ((ih _ _ hl).cons x).trans (cons_eraseIdx_perm hx)

theorem State.ordered_perm {α : Type} (s : State) (xs : List α) : (s.ordered xs).1.Perm xs := by
  unfold State.ordered
  split
  · exact .refl _
  · exact shuffle_perm _ _ _ (le_refl _)

/-- Work on one channel or generator draws no order. -/
theorem State.forEach_singleton {α : Type} (s : State) (x : α) (f : α → State → State) : s.forEach [x] f = f x s := by
  simp [State.forEach, State.ordered]

theorem State.forEach_nil {α : Type} (s : State) (f : α → State → State) : s.forEach [] f = s := by
  simp [State.forEach, State.ordered]

/-- Taking the first element that satisfies a test from a list: what satisfies it keeps its order behind that element, and what another
test selects keeps its order. -/
theorem filter_eraseIdx_findIdx {α : Type} (f g : α → Bool) (xs : List α) (x : α) (h : xs[xs.findIdx f]? = some x) :
    f x = true ∧ xs.filter f = x :: (xs.eraseIdx (xs.findIdx f)).filter f ∧
      ((∀ y, f y = true → g y = false) → (xs.eraseIdx (xs.findIdx f)).filter g = xs.filter g) := by
  induction xs with
  | nil => cases h
  | cons y ys ih =>
    by_cases hy : f y = true
    · simp only [List.findIdx_cons, hy, cond_true, List.getElem?_cons_zero, Option.some.injEq] at h
      subst h
      simp +contextual [List.findIdx_cons, hy]
    · simp only [List.findIdx_cons, hy, cond_false, List.getElem?_cons_succ] at h
      obtain ⟨h1, h2, h3⟩ := ih h
      refine ⟨h1, ?_, fun hg => ?_⟩
      · simp [List.findIdx_cons, hy, h2]
      · simp [List.findIdx_cons, hy, List.filter_cons, h3 hg]

/-- A merge of reports takes each of them once and keeps the order of each producer (R128). -/
theorem mergeReports_keeps_order (n seed : Nat) (xs : List (Producer × Report)) (h : xs.length ≤ n) :
    ∃ ys : List (Producer × Report), mergeReports n seed xs = ys.map Prod.snd ∧ ys.Perm xs ∧
      ∀ q, ys.filter (fun y => y.1 == q) = xs.filter fun y => y.1 == q := by
  induction n generalizing seed xs with
  | zero =>
    cases List.length_eq_zero_iff.1 (Nat.le_zero.1 h)
    exact ⟨[], rfl, .refl _, fun _ => rfl⟩
  | succ n ih =>
    unfold mergeReports
    split
    · rename_i hx
      have : xs = [] := by
        by_contra hne
        simp at hx
        exact absurd (mod_length_lt seed hne) (Nat.not_lt.2 hx)
      subst this
      exact ⟨[], rfl, .refl _, fun _ => rfl⟩
    · rename_i p r hp
      split
      · rename_i hx
        have : xs.findIdx (fun x => x.1 == p) < xs.length :=
          List.findIdx_lt_length_of_exists ⟨_, List.mem_of_getElem? hp, by simp⟩
        rw [List.getElem?_eq_getElem this] at hx
        cases hx
      · rename_i q r' hx
        have hl : (xs.eraseIdx (xs.findIdx fun x => x.1 == p)).length ≤ n := by
          have := (cons_eraseIdx_perm hx).length_eq
          simp only [List.length_cons] at this
          omega
        obtain ⟨ys, e, hperm, hf⟩ := ih (seed / xs.length) _ hl
        refine ⟨(q, r') :: ys, by rw [e]; rfl, (hperm.cons _).trans (cons_eraseIdx_perm hx), fun k => ?_⟩
        obtain ⟨hq, hs, ho⟩ := filter_eraseIdx_findIdx (fun x => x.1 == p) (fun x => x.1 == k) xs _ hx
        have hq : q = p := by simpa using hq
        subst hq
        rw [List.filter_cons, hf]
        by_cases hk : q = k
        · subst hk
          simpa using hs.symm
        · simp only [beq_iff_eq, hk, if_false]
          exact ho fun y hy => by
            have : y.1 = q := by simpa using hy
            simp [this, hk]

/-- A merge of reports takes each of them once. -/
theorem mergeReports_perm (n seed : Nat) (xs : List (Producer × Report)) (h : xs.length ≤ n) :
    (mergeReports n seed xs).Perm (xs.map Prod.snd) := by
  obtain ⟨ys, e, hp, -⟩ := mergeReports_keeps_order n seed xs h
  exact e ▸ hp.map Prod.snd

/-- RPT takes the reports made in an event each once and in the order of each producer (R128). -/
theorem State.takenReports_keeps_order (s : State) :
    ∃ ys : List (Producer × Report), s.takenReports.1 = ys.map Prod.snd ∧ ys.Perm s.outbox ∧
      ∀ q, ys.filter (fun y => y.1 == q) = s.outbox.filter fun y => y.1 == q := by
  unfold State.takenReports
  split
  · exact ⟨s.outbox, rfl, .refl _, fun _ => rfl⟩
  · exact mergeReports_keeps_order _ _ _ (le_refl _)

end Sys2Proof.Machine
end

