-- ==== Sys2Proof/Laws/Forced.lean ====
section
/-! SUPPORT. The forced closes (R93): what the channels whose gates are shut hold afterwards, which generators have lost their last user
and what becomes of them, of the wait list and of the other channels; the channels that leave at one moment; and
the waiting channels that a STOP names. -/

namespace Sys2Proof.Machine

/-- A channel whose gate is shut: no attachment and no wait timer. -/
def Channel.shut (ch : Channel) : Channel :=
  { ch with waitTimer := none, active := ch.active.map fun a => { a with attach := none } }

theorem Channel.shut_shut (ch : Channel) : ch.shut.shut = ch.shut := by
  rcases h : ch.active with _ | a <;> simp [Channel.shut, h]

@[simp] theorem Channel.shut_attachment (ch : Channel) : ch.shut.attachment = none := by
  rcases h : ch.active with _ | a <;> simp [Channel.shut, Channel.attachment, h]

@[simp] theorem State.chan_shutGate (s : State) (c d : Chan) :
    (s.shutGate c).chan d = if d = c then (s.chan d).shut else s.chan d := by
  by_cases h : d = c
  · subst h
    simp [State.shutGate, State.leaveWaitList, Channel.shut]
  · simp [State.shutGate, State.leaveWaitList, h]

@[simp] theorem State.gen_shutGate (s : State) (c : Chan) (g : GenId) : (s.shutGate c).gen g = s.gen g := rfl

@[simp] theorem State.shutGate_classes (s : State) (c : Chan) : (s.shutGate c).carb.classes = s.carb.classes := rfl

@[simp] theorem State.shutGate_waitList (s : State) (c : Chan) :
    (s.shutGate c).carb.waitList = s.carb.waitList.filter fun w => w.chan ≠ c := rfl

/-- After the gates of several channels are shut, those channels are shut and every other channel is as it was. -/
theorem State.chan_foldl_shutGate (cs : List Chan) (s : State) (d : Chan) :
    (cs.foldl State.shutGate s).chan d = if d ∈ cs then (s.chan d).shut else s.chan d := by
  induction cs generalizing s with
  | nil => simp
  | cons c cs ih =>
    simp only [List.foldl_cons, ih, State.chan_shutGate, List.mem_cons]
    by_cases h : d = c <;> by_cases h' : d ∈ cs <;> simp [h, h', Channel.shut_shut]

theorem State.gen_foldl_shutGate (cs : List Chan) (s : State) (g : GenId) :
    (cs.foldl State.shutGate s).gen g = s.gen g := by
  induction cs generalizing s with
  | nil => rfl
  | cons c cs ih => rw [List.foldl_cons, ih, State.gen_shutGate]

/-- The wait list keeps the places of the other channels. -/
theorem State.waitList_foldl_shutGate (cs : List Chan) (s : State) :
    (cs.foldl State.shutGate s).carb.waitList = s.carb.waitList.filter fun w => w.chan ∉ cs := by
  induction cs generalizing s with
  | nil => simp
  | cons c cs ih =>
    rw [List.foldl_cons, ih, State.shutGate_waitList, List.filter_filter]
    congr 1
    funext w
    simp [not_or, Bool.and_comm]

/-- A generator keeps the users whose gates are not shut. -/
theorem State.users_foldl_shutGate (cs : List Chan) (s : State) (g : GenId) :
    (cs.foldl State.shutGate s).users g = (s.users g).filter fun c => c ∉ cs := by
  unfold State.users chansWith
  rw [List.filter_filter]
  congr 1
  funext c
  by_cases h : c ∈ cs <;> simp [State.uses, State.chan_foldl_shutGate, h]

/-- The generators that settle after the gates are shut are those that lose their last user by it. -/
theorem State.mem_deserted (s : State) (cs : List Chan) (g : GenId) :
    g ∈ s.deserted cs ↔ s.Deserted (fun c => decide (c ∈ cs)) g := by
  have hu : ∀ c, c ∈ s.users g ↔ s.uses c g = true := by simp [State.users, chansWith]
  simp only [State.deserted, List.mem_filter, List.mem_finRange, true_and, Bool.and_eq_true, List.any_eq_true,
    List.isEmpty_iff, State.users_foldl_shutGate, List.filter_eq_nil_iff, decide_eq_true_eq, not_not, State.Deserted, hu]
  exact and_congr_left fun _ => ⟨fun ⟨c, h, h'⟩ => ⟨c, h', h⟩, fun ⟨c, h, h'⟩ => ⟨c, h', h⟩⟩

/-- The moment is a cycle boundary of a RUNNING generator exactly where its phase is 0 or has reached the period (R80, log 8). -/
theorem State.atBoundary_iff {s : State} {g : GenId} {k : Cls} {phase : Nat} {high : Bool} (h : s.gen g = .running k phase high) :
    s.atBoundary g = true ↔ s.AtCycleEnd g := by
  simp only [State.atBoundary, h, Gen.cls, Gen.phase, decide_eq_true_eq, State.AtCycleEnd, State.periodOf, Gen.running.injEq]
  cases hx : s.carrierClass k with
  | none => simp [hx]
  | some x =>
    constructor
    · exact fun o => ⟨k, phase, high, ⟨rfl, rfl, rfl⟩, by simpa [hx] using o⟩
    · rintro ⟨_, _, _, ⟨rfl, rfl, rfl⟩, o⟩
      simpa [hx] using o

/-! ### Grants, and generators that settle -/

theorem Channel.granted_of_waiting {g : GenId} {ch : Channel} (h : ch.state = .carrierWait) : ch.granted g = ch.served g := by
  simp [Channel.granted, Channel.served, h]

theorem Channel.granted_of_not_waiting {g : GenId} {ch : Channel} (h : ch.state ≠ .carrierWait) : ch.granted g = ch := by
  simp [Channel.granted, h]

theorem Channel.granted_twice (g : GenId) (ch : Channel) : (ch.granted g).granted g = ch.granted g := by
  by_cases h : ch.state = .carrierWait
  · rw [Channel.granted_of_not_waiting (ch := ch.granted g)]
    simp [Channel.granted, h]
  · rw [Channel.granted_of_not_waiting h, Channel.granted_of_not_waiting h]

theorem State.chan_foldl_granted (g : GenId) (cs : List Chan) (s : State) (d : Chan) :
    (cs.foldl (fun s c => s.modChan c (Channel.granted g)) s).chan d = if d ∈ cs then (s.chan d).granted g else s.chan d := by
  induction cs generalizing s with
  | nil => simp
  | cons c cs ih =>
    rw [List.foldl_cons, ih]
    by_cases h : d = c <;> by_cases h' : d ∈ cs <;> simp [h, h', Channel.granted_twice]

theorem State.carb_foldl_granted (g : GenId) (cs : List Chan) (s : State) :
    (cs.foldl (fun s c => s.modChan c (Channel.granted g)) s).carb = s.carb := by
  induction cs generalizing s with
  | nil => rfl
  | cons c cs ih => rw [List.foldl_cons, ih, State.modChan_carb]

/-- A grant with nobody waiting changes nothing. -/
theorem State.grant_of_nobody {s : State} {g : GenId} (h : s.carb.waitList = []) : s.grant g = s := by
  simp [State.grant, h]

/-- A grant with a channel waiting (R90): the generator, the wait list and the channels. -/
theorem State.grant_of_waiter {s : State} {g : GenId} {w : Waiter} {rest : List Waiter} (h : s.carb.waitList = w :: rest) :
    (s.grant g).gen g = .running w.cls 0 true ∧ (∀ g', g' ≠ g → (s.grant g).gen g' = s.gen g') ∧
    (s.grant g).carb.classes = s.carb.classes ∧
    (s.grant g).carb.waitList = s.carb.waitList.filter (fun y => y.cls ≠ w.cls) ∧
    (∀ y ∈ s.carb.waitList, y.cls = w.cls → (s.grant g).chan y.chan = (s.chan y.chan).granted g) ∧
    ∀ c, (∀ y ∈ s.carb.waitList, y.cls = w.cls → y.chan ≠ c) → (s.grant g).chan c = s.chan c := by
  have e : s.grant g = ((s.carb.waitList.filter fun x => x.cls = w.cls).map Waiter.chan).foldl
      (fun s c => s.modChan c (Channel.granted g))
      ((s.setGen g (.running w.cls 0 true)).setWaitList (s.carb.waitList.filter fun x => x.cls ≠ w.cls)) := by
    unfold State.grant
    rw [h]
  rw [e]
  have hg : ∀ g' t, (State.gen ((((s.carb.waitList.filter fun x => x.cls = w.cls).map Waiter.chan).foldl
      (fun s c => s.modChan c (Channel.granted g)) t)) g') = t.gen g' := fun g' t => by
    unfold State.gen
    rw [State.carb_foldl_granted]
  refine ⟨?_, fun g' hne => ?_, ?_, ?_, fun y hy hc => ?_, fun c hc => ?_⟩
  · rw [hg]; simp [State.gen, State.setGen, State.setWaitList]
  · rw [hg]
    simp only [State.gen, State.setGen, State.setWaitList]
    exact Vector.getElem_set_ne _ _ (by simpa [Fin.ext_iff, eq_comm] using hne)
  · rw [State.carb_foldl_granted]; rfl
  · rw [State.carb_foldl_granted]; rfl
  · rw [State.chan_foldl_granted, if_pos (List.mem_map.2 ⟨y, by simp [hy, hc], rfl⟩)]
    simp
  · rw [State.chan_foldl_granted, if_neg]
    · simp
    · rintro h'
      obtain ⟨y, hy, e'⟩ := List.mem_map.1 h'
      simp only [List.mem_filter, decide_eq_true_eq] at hy
      exact hc y hy.1 hy.2 e'

theorem State.classes_foldl_shutGate (cs : List Chan) (s : State) :
    (cs.foldl State.shutGate s).carb.classes = s.carb.classes := by
  induction cs generalizing s with
  | nil => rfl
  | cons c cs ih => rw [List.foldl_cons, ih, State.shutGate_classes]

/-- A generator whose last user left between two cycle boundaries drains (R88). -/
theorem State.lastUserLeft_between {s : State} {g : GenId} {k : Cls} {phase : Nat} {high : Bool}
    (h : s.gen g = .running k phase high) (hb : ¬s.AtCycleEnd g) : s.lastUserLeft g = s.setGen g (.draining k phase high) := by
  unfold State.lastUserLeft
  simp only [h]
  exact if_neg (mt (State.atBoundary_iff h).1 hb)

/-- A generator whose last user left at a cycle boundary is FREE, and granted if a channel waits (R87, R90). -/
theorem State.lastUserLeft_at {s : State} {g : GenId} (hb : s.AtCycleEnd g) : s.lastUserLeft g = (s.setGen g .free).grant g := by
  obtain ⟨k, phase, high, h, -⟩ := id hb
  unfold State.lastUserLeft
  simp only [h]
  exact if_pos ((State.atBoundary_iff h).2 hb)

theorem State.atCycleEnd_congr {s t : State} {g : GenId} (hg : t.gen g = s.gen g) (hc : t.carb.classes = s.carb.classes) :
    t.AtCycleEnd g ↔ s.AtCycleEnd g := by
  unfold State.AtCycleEnd State.carrierClass
  rw [hg, hc]

theorem State.not_atCycleEnd_of_not_running {s : State} {g : GenId} (h : ∀ k p b, s.gen g ≠ .running k p b) : ¬s.AtCycleEnd g :=
  fun ⟨k, p, b, e, _⟩ => h k p b e

/-- What becomes of generators whose last users have left, of the wait list and of the channels, when they settle one after the other. -/
structure State.Settles (s t : State) (gs : List GenId) : Prop where
  classes : t.carb.classes = s.carb.classes
  kept : ∀ g, g ∉ gs → t.gen g = s.gen g
  drains : ∀ g ∈ gs, ∀ k phase high, s.gen g = .running k phase high → ¬s.AtCycleEnd g → t.gen g = .draining k phase high
  frees : ∀ g ∈ gs, s.AtCycleEnd g →
    (t.gen g = .free ∧ t.carb.waitList = []) ∨ ∃ w ∈ s.carb.waitList, t.gen g = .running w.cls 0 true
  idle : s.carb.waitList = [] → t.carb.waitList = [] ∧ ∀ g ∈ gs, s.AtCycleEnd g → t.gen g = .free
  waits : (∀ g ∈ gs, ¬s.AtCycleEnd g) → t.carb.waitList = s.carb.waitList
  grants : ∀ g ∈ gs, ∀ w rest, s.AtCycleEnd g → (∀ g' ∈ gs, g' ≠ g → ¬s.AtCycleEnd g') → s.carb.waitList = w :: rest →
    t.gen g = .running w.cls 0 true ∧ t.carb.waitList = (w :: rest).filter (fun y => y.cls ≠ w.cls) ∧
      ∀ y ∈ w :: rest, y.cls = w.cls → (s.chan y.chan).state = .carrierWait → t.chan y.chan = (s.chan y.chan).served g
  others : ∀ c, t.chan c = s.chan c ∨ ∃ g ∈ gs, ∃ w ∈ s.carb.waitList, s.AtCycleEnd g ∧ w.chan = c ∧
    (s.chan c).state = .carrierWait ∧ t.gen g = .running w.cls 0 true ∧ t.chan c = (s.chan c).served g
  fewer : t.carb.waitList ⊆ s.carb.waitList

theorem State.Settles.nil (s : State) : s.Settles s [] := by
  constructor <;> simp

/-- One generator settles. -/
theorem State.settles_lastUserLeft (s : State) (g : GenId) : s.Settles (s.lastUserLeft g) [g] := by
  by_cases hb : s.AtCycleEnd g
  · rw [State.lastUserLeft_at hb]
    cases hw : s.carb.waitList with
    | nil =>
      rw [State.grant_of_nobody (by exact hw)]
      constructor <;> simp_all [State.setGen_waitList]
    | cons w rest =>
      obtain ⟨h1, h2, h3, h4, h5, h6⟩ := State.grant_of_waiter (s := s.setGen g .free) (g := g) (w := w) (rest := rest) (by exact hw)
      simp only [State.gen_setGen, State.setGen_classes, State.setGen_waitList, State.chan_setGen] at h2 h3 h4 h5 h6
      refine ⟨h3, fun g' hg => ?_, fun g' hg _ _ _ _ hn => absurd hb (List.mem_singleton.1 hg ▸ hn), fun g' hg _ => .inr ⟨w, ?_, ?_⟩,
        fun h => absurd (hw.symm.trans h) (by simp), fun h => absurd hb (h g (List.mem_singleton_self g)), ?_, fun c => ?_, ?_⟩
      · have hg : g' ≠ g := by simpa using hg
        rw [h2 g' hg, if_neg hg]
      · simp [hw]
      · rw [List.mem_singleton.1 hg, h1]
      · intro g' hg w' rest' _ _ hl
        rw [hw] at hl
        cases hl
        rw [List.mem_singleton.1 hg]
        refine ⟨h1, h4.trans (by rw [hw]), fun y hy hc hs => ?_⟩
        rw [h5 y (hw ▸ hy) hc, Channel.granted_of_waiting hs]
      · by_cases hy : ∃ y ∈ s.carb.waitList, y.cls = w.cls ∧ y.chan = c
        · obtain ⟨y, hy, hc, rfl⟩ := hy
          rw [h5 y hy hc]
          by_cases hs : (s.chan y.chan).state = .carrierWait
          · exact .inr ⟨g, List.mem_singleton_self g, y, hy, hb, rfl, hs, hc ▸ h1, Channel.granted_of_waiting hs⟩
          · exact .inl (Channel.granted_of_not_waiting hs)
        · exact .inl (h6 c fun y m e e' => hy ⟨y, m, e, e'⟩)
      · rw [h4]
        exact fun y m => List.mem_of_mem_filter m
  · have e : ∃ x, s.lastUserLeft g = s.setGen g x ∧ ∀ k p b, s.gen g = .running k p b → x = .draining k p b := by
      by_cases hr : ∃ k p b, s.gen g = .running k p b
      · obtain ⟨k, p, b, hr⟩ := hr
        refine ⟨_, State.lastUserLeft_between hr hb, fun k' p' b' h => ?_⟩
        rw [hr] at h
        cases h
        rfl
      · refine ⟨s.gen g, ?_, fun k p b h => absurd ⟨k, p, b, h⟩ hr⟩
        have h1 : s.lastUserLeft g = s := by
          unfold State.lastUserLeft
          cases h : s.gen g with
          | running k p b => exact absurd ⟨k, p, b, h⟩ hr
          | _ => rfl
        rw [h1]
        simp [State.setGen, State.gen]
    obtain ⟨x, e, hx⟩ := e
    rw [e]
    refine ⟨rfl, fun g' hg => ?_, fun g' hg k p b hr _ => ?_, fun g' hg h => ?_, fun h => ⟨h, fun g' hg h => ?_⟩, fun _ => rfl,
      fun g' hg _ _ h => ?_, fun c => .inl rfl, fun _ m => m⟩
    · simp_all
    · rw [List.mem_singleton.1 hg] at hr ⊢
      simp [hx k p b hr]
    all_goals exact absurd (List.mem_singleton.1 hg ▸ h) hb

theorem State.Settles.cons {s u t : State} {g : GenId} {gs : List GenId} (hg : g ∉ gs) (h : s.Settles u [g])
    (h' : u.Settles t gs) : s.Settles t (g :: gs) := by
  have hne : ∀ g' ∈ gs, u.gen g' = s.gen g' := fun g' m => h.kept g' (by simp; rintro rfl; exact hg m)
  have hend : ∀ g' ∈ gs, (u.AtCycleEnd g' ↔ s.AtCycleEnd g') := fun g' m => State.atCycleEnd_congr (hne g' m) h.classes
  have hself : t.gen g = u.gen g := h'.kept g hg
  have m : g ∈ [g] := List.mem_singleton_self g
  refine ⟨h'.classes.trans h.classes, fun g' n => ?_, fun g' n k p b hr hb => ?_, fun g' n hb => ?_, fun hw => ?_, fun hb => ?_, ?_,
    fun c => ?_, fun w hw => h.fewer (h'.fewer hw)⟩
  · rw [List.mem_cons, not_or] at n
    rw [h'.kept g' n.2, h.kept g' (by simpa using n.1)]
  · rcases List.mem_cons.1 n with rfl | n
    · rw [hself, h.drains _ m k p b hr hb]
    · exact h'.drains g' n k p b (hne g' n ▸ hr) (mt (hend g' n).1 hb)
  · rcases List.mem_cons.1 n with rfl | n
    · rw [hself]
      rcases h.frees _ m hb with ⟨h1, h2⟩ | h1
      · exact .inl ⟨h1, (h'.idle h2).1⟩
      · exact .inr h1
    · rcases h'.frees g' n ((hend g' n).2 hb) with h1 | ⟨w, h1, h2⟩
      · exact .inl h1
      · exact .inr ⟨w, h.fewer h1, h2⟩
  · refine ⟨(h'.idle (h.idle hw).1).1, fun g' n hb => ?_⟩
    rcases List.mem_cons.1 n with rfl | n
    · rw [hself, (h.idle hw).2 _ m hb]
    · exact (h'.idle (h.idle hw).1).2 g' n ((hend g' n).2 hb)
  · rw [h'.waits fun g' n => mt (hend g' n).1 (hb g' (List.mem_cons_of_mem _ n)),
      h.waits fun g' n => hb g' (by simp_all)]
  · intro g' n w rest hb ho hw
    rcases List.mem_cons.1 n with rfl | n
    · have hno : ∀ g'' ∈ gs, ¬u.AtCycleEnd g'' := fun g'' n' =>
        mt (hend g'' n').1 (ho g'' (List.mem_cons_of_mem _ n') (by rintro rfl; exact hg n'))
      obtain ⟨h1, h2, h3⟩ := h.grants _ m w rest hb (fun x hx hxne => absurd (List.mem_singleton.1 hx) hxne) hw
      refine ⟨hself.trans h1, (h'.waits hno).trans h2, fun y hy hc hs => ?_⟩
      rcases h'.others y.chan with e | ⟨x, hx, -, -, hb', -⟩
      · rw [e, h3 y hy hc hs]
      · exact absurd hb' (hno x hx)
    · have hgb : ¬s.AtCycleEnd g := ho g List.mem_cons_self (by rintro rfl; exact hg n)
      have hw' : u.carb.waitList = w :: rest := (h.waits fun x hx => List.mem_singleton.1 hx ▸ hgb).trans hw
      have hch : ∀ c, u.chan c = s.chan c := fun c => by
        rcases h.others c with e | ⟨x, hx, -, -, hb', -⟩
        · exact e
        · exact absurd (List.mem_singleton.1 hx ▸ hb') hgb
      obtain ⟨h1, h2, h3⟩ := h'.grants g' n w rest ((hend g' n).2 hb)
        (fun x hx hxne => mt (hend x hx).1 (ho x (List.mem_cons_of_mem _ hx) hxne)) hw'
      exact ⟨h1, h2, fun y hy hc hs => by rw [h3 y hy hc (by rw [hch]; exact hs), hch]⟩
  · rcases h'.others c with e | ⟨x, hx, w, hw, hb, hc, hs, hr, e⟩
    · rcases h.others c with e' | ⟨x, hx, w, hw, hb, hc, hs, hr, e'⟩
      · exact .inl (e.trans e')
      · have : x = g := List.mem_singleton.1 hx
        subst this
        exact .inr ⟨x, List.mem_cons_self, w, hw, hb, hc, hs, hself.trans hr, e.trans e'⟩
    · rcases h.others c with e' | ⟨_, -, _, -, -, -, -, -, e'⟩
      · exact .inr ⟨x, List.mem_cons_of_mem _ hx, w, h.fewer hw, (hend x hx).1 hb, hc, e' ▸ hs, hr, by rw [e, e']⟩
      · rw [e'] at hs
        cases hs

theorem State.settles_foldl (gs : List GenId) (hn : gs.Nodup) (s : State) :
    s.Settles (gs.foldl (fun t g => t.lastUserLeft g) s) gs := by
  induction gs generalizing s with
  | nil => exact .nil s
  | cons g gs ih =>
    rw [List.nodup_cons] at hn
    exact (s.settles_lastUserLeft g).cons hn.1 (ih hn.2 _)

/-- A forced close of several channels' gates does to generators, wait list and the other channels what R88, R90, R91 and R93 say; the
channels themselves are shut, and none of them waits. -/
theorem State.forceClose_closes (s : State) (cs : List Chan) :
    s.ForceClosed (s.forceClose cs) (fun c => decide (c ∈ cs)) ∧
      (∀ c ∈ cs, (s.forceClose cs).chan c = (s.chan c).shut) ∧ ∀ w ∈ (s.forceClose cs).carb.waitList, w.chan ∉ cs := by
  have hw : (cs.foldl State.shutGate s).carb.waitList = s.waitersLeft fun c => decide (c ∈ cs) := by
    rw [State.waitList_foldl_shutGate]
    unfold State.waitersLeft
    congr 1
    funext w
    simp
  have hmem : ∀ w ∈ s.waitersLeft (fun c => decide (c ∈ cs)), w.chan ∉ cs := fun w h => by
    simpa [State.waitersLeft] using (List.mem_filter.1 h).2
  have hc : ∀ c, c ∉ cs → (cs.foldl State.shutGate s).chan c = s.chan c := fun c h => by
    rw [State.chan_foldl_shutGate, if_neg h]
  have hg : ∀ g, (cs.foldl State.shutGate s).gen g = s.gen g := State.gen_foldl_shutGate cs s
  have hcls : (cs.foldl State.shutGate s).carb.classes = s.carb.classes := State.classes_foldl_shutGate cs s
  have hend : ∀ g, (cs.foldl State.shutGate s).AtCycleEnd g ↔ s.AtCycleEnd g := fun g => State.atCycleEnd_congr (hg g) hcls
  obtain ⟨gs, u, hu, hp, hs, h1, h2, h3⟩ : ∃ (gs : List GenId) (u : State), s.forceClose cs = gs.foldl (fun t g => t.lastUserLeft g) u ∧
      gs.Perm (s.deserted cs) ∧ gs.Nodup ∧ u.carb = (cs.foldl State.shutGate s).carb ∧ u.chans = (cs.foldl State.shutGate s).chans ∧ True := by
    have hp := State.ordered_perm (cs.foldl State.shutGate s) (s.deserted cs)
    have hn : (s.deserted cs).Nodup := (List.nodup_finRange 3).filter _
    refine ⟨_, _, rfl, hp, hp.nodup_iff.2 hn, ?_, ?_, trivial⟩ <;> (unfold State.ordered; split <;> rfl)
  have d : ∀ g, g ∈ gs ↔ s.Deserted (fun c => decide (c ∈ cs)) g := fun g => hp.mem_iff.trans (State.mem_deserted s cs g)
  have hug : ∀ g, u.gen g = s.gen g := fun g => (State.gen_congr h1 g).trans (hg g)
  have huc : ∀ c, u.chan c = (cs.foldl State.shutGate s).chan c := State.chan_congr h2
  have huw : u.carb.waitList = s.waitersLeft fun c => decide (c ∈ cs) := (congrArg Carriers.waitList h1).trans hw
  have hue : ∀ g, u.AtCycleEnd g ↔ s.AtCycleEnd g := fun g =>
    State.atCycleEnd_congr (hug g) ((congrArg Carriers.classes h1).trans hcls)
  have k := State.settles_foldl gs hs u
  rw [← hu] at k
  refine ⟨⟨k.classes.trans ((congrArg Carriers.classes h1).trans hcls), fun g hn => ?_, fun g p ph hi hd hr hb => ?_, fun g hd hb => ?_,
    fun hl => ?_, fun hn => ?_, fun g w rest hd hb ho hl => ?_, fun c hgo => ?_⟩, fun c hcs => ?_, fun w hm => ?_⟩
  · rw [k.kept g (mt (d g).1 hn), hug]
  · exact k.drains g ((d g).2 hd) p ph hi ((hug g).trans hr) (mt (hue g).1 hb)
  · exact huw ▸ k.frees g ((d g).2 hd) ((hue g).2 hb)
  · obtain ⟨x, y⟩ := k.idle (huw.trans hl)
    exact ⟨x, fun g hd hb => y g ((d g).2 hd) ((hue g).2 hb)⟩
  · exact (k.waits fun g m => mt (hue g).1 (hn g ((d g).1 m))).trans huw
  · obtain ⟨x, y, z⟩ := k.grants g ((d g).2 hd) w rest ((hue g).2 hb)
      (fun g' m hne => mt (hue g').1 (ho g' hne ((d g').1 m))) (huw.trans hl)
    refine ⟨x, y, fun v m e st => ?_⟩
    have hv : u.chan v.chan = s.chan v.chan := (huc _).trans (hc _ (hmem v (hl ▸ m)))
    rw [z v m e (by rw [hv]; exact st), hv]
  · have hgo : c ∉ cs := by simpa using hgo
    have hv : u.chan c = s.chan c := (huc _).trans (hc _ hgo)
    rcases k.others c with e | ⟨g, m, w, hm, hb, rfl, -, hr, e⟩
    · exact .inl (e.trans hv)
    · exact .inr ⟨g, w, huw ▸ hm, (d g).1 m, (hue g).1 hb, rfl, hr, by rw [e, hv]⟩
  · rcases k.others c with e | ⟨g, m, w, hm, hb, rfl, -, hr, e⟩
    · rw [e, huc, State.chan_foldl_shutGate, if_pos hcs]
    · exact absurd hcs (hmem w (huw ▸ hm))
  · exact hmem w (huw ▸ k.fewer hm)

/-! ### The channels leave -/

/-- Two states with the same generators, classes and wait list, and the same channels but one, whose configuration and attachment are
kept. -/
def State.LeavesCarriers (s t : State) (c : Chan) : Prop :=
  t.carb = s.carb ∧ (∀ d, d ≠ c → t.chan d = s.chan d) ∧ (t.chan c).config = (s.chan c).config

theorem State.LeavesCarriers.trans {s t u : State} {c : Chan} (h : s.LeavesCarriers t c) (h' : t.LeavesCarriers u c) :
    s.LeavesCarriers u c :=
  ⟨h'.1.trans h.1, fun d n => (h'.2.1 d n).trans (h.2.1 d n), h'.2.2.trans h.2.2⟩

theorem State.giveUpCarrier_of_shut {s : State} {c : Chan} (ha : (s.chan c).attachment = none)
    (hw : ∀ w ∈ s.carb.waitList, w.chan ≠ c) : s.LeavesCarriers (s.giveUpCarrier c) c := by
  have e : (s.leaveWaitList c).carb = s.carb := by
    simp only [State.leaveWaitList, State.modChan_carb, State.setWaitList]
    rw [List.filter_eq_self.2 fun w m => by simpa using hw w m]
  have d : (s.leaveWaitList c).detach c = s.leaveWaitList c := by
    unfold State.detach
    rw [show ((s.leaveWaitList c).chan c).attachment = none by simpa [State.leaveWaitList, Channel.attachment] using ha]
  unfold State.giveUpCarrier
  rw [d]
  exact ⟨e, fun d n => by simp [State.leaveWaitList, n], by simp [State.leaveWaitList]⟩

theorem State.leavesCarriers_dropJob (s : State) (c : Chan) (j : Job) (r : DropReason) : s.LeavesCarriers (s.dropJob c j r) c :=
  ⟨rfl, fun d n => by simp [State.dropJob, State.dropRef, n], by simp [State.dropJob, State.dropRef, Channel.withoutJob]⟩

theorem State.leavesCarriers_dropAll (s : State) (c : Chan) (r : DropReason) : s.LeavesCarriers (s.dropAll c r) c := by
  unfold State.dropAll
  generalize (s.chan c).queue = js
  induction js generalizing s with
  | nil => exact ⟨rfl, fun _ _ => rfl, rfl⟩
  | cons j js ih => exact (s.leavesCarriers_dropJob c j r).trans (ih _)

theorem State.leavesCarriers_endJob {s : State} {c : Chan} (ha : (s.chan c).attachment = none)
    (hw : ∀ w ∈ s.carb.waitList, w.chan ≠ c) (o : JobOutcome) : s.LeavesCarriers (s.endJob c o) c := by
  unfold State.endJob
  split
  · exact ⟨rfl, fun _ _ => rfl, rfl⟩
  · refine (State.giveUpCarrier_of_shut ha hw).trans ?_
    split
    · exact ⟨rfl, fun d n => by simp [State.dropRef, n], by simp [State.dropRef]⟩
    · exact ⟨rfl, fun d n => by simp [State.dropRef, n], by simp [State.dropRef]⟩

/-- A channel whose gate is shut leaves without a change to the generators, the wait list or another channel. -/
theorem State.evict_of_shut {s : State} {c : Chan} (ha : (s.chan c).attachment = none)
    (hw : ∀ w ∈ s.carb.waitList, w.chan ≠ c) (o : JobOutcome) (r : DropReason) (x : ChState) :
    (s.evict c o r x).carb = s.carb ∧ (∀ d, d ≠ c → (s.evict c o r x).chan d = s.chan d) ∧
      (s.evict c o r x).chan c = Channel.empty x (s.chan c).config := by
  have h := (State.leavesCarriers_endJob ha hw o).trans (State.leavesCarriers_dropAll _ c r)
  unfold State.evict
  exact ⟨h.1, fun d n => by simpa [n] using h.2.1 d n, by simp [h.2.2]⟩

/-- Several channels leave at one moment (R93, R104, R143): each of them is empty in its new state, and the generators, the wait list and
every other channel are as the forced close of their gates leaves them. -/
theorem State.evictAll_leaves (s : State) (cs : List Chan) (o : JobOutcome) (r : DropReason) (x : ChState) :
    (s.evictAll cs o r x).carb = (s.forceClose cs).carb ∧
      (∀ c ∈ cs, (s.evictAll cs o r x).chan c = Channel.empty x (s.chan c).config) ∧
      ∀ c, c ∉ cs → (s.evictAll cs o r x).chan c = (s.forceClose cs).chan c := by
  obtain ⟨-, h1, h2⟩ := s.forceClose_closes cs
  have hp := State.ordered_perm (s.forceClose cs) cs
  have key : ∀ (ds : List Chan) (t : State), (∀ c ∈ ds, (t.chan c).attachment = none) → (∀ w ∈ t.carb.waitList, w.chan ∉ ds) →
      (ds.foldl (fun t c => t.evict c o r x) t).carb = t.carb ∧
      (∀ c ∈ ds, (ds.foldl (fun t c => t.evict c o r x) t).chan c = Channel.empty x (t.chan c).config) ∧
      ∀ c, c ∉ ds → (ds.foldl (fun t c => t.evict c o r x) t).chan c = t.chan c := by
    intro ds
    induction ds with
    | nil => exact fun t _ _ => ⟨rfl, fun _ m => absurd m (by simp), fun _ _ => rfl⟩
    | cons c ds ih =>
      intro t ha hw
      obtain ⟨e1, e2, e3⟩ := State.evict_of_shut (ha c List.mem_cons_self)
        (fun w m e => hw w m (e ▸ List.mem_cons_self)) o r x
      obtain ⟨i1, i2, i3⟩ := ih (t.evict c o r x)
        (fun d m => by
          by_cases n : d = c
          · subst n; rw [e3]; rfl
          · rw [e2 d n]; exact ha d (List.mem_cons_of_mem _ m))
        (fun w m => by rw [e1] at m; exact fun m' => hw w m (List.mem_cons_of_mem _ m'))
      refine ⟨i1.trans e1, fun d m => ?_, fun d n => ?_⟩
      · simp only [List.foldl_cons]
        by_cases n : d = c
        · subst n
          by_cases m' : d ∈ ds
          · rw [i2 d m', e3]; rfl
          · rw [i3 d m', e3]
        · rw [i2 d ((List.mem_cons.1 m).resolve_left n), e2 d n]
      · rw [List.mem_cons, not_or] at n
        simp only [List.foldl_cons]
        rw [i3 d n.2, e2 d n.1]
  have hc : ∀ d, ((s.forceClose cs).ordered cs).2.chan d = (s.forceClose cs).chan d ∧
      ((s.forceClose cs).ordered cs).2.carb = (s.forceClose cs).carb := fun d => by
    unfold State.ordered
    split <;> exact ⟨rfl, rfl⟩
  obtain ⟨k1, k2, k3⟩ := key ((s.forceClose cs).ordered cs).1 ((s.forceClose cs).ordered cs).2
    (fun c m => by rw [(hc c).1, h1 c (hp.mem_iff.1 m), Channel.shut_attachment])
    (fun w m m' => h2 w (by rw [(hc 0).2] at m; exact m) (hp.mem_iff.1 m'))
  refine ⟨k1.trans (hc 0).2, fun c m => ?_, fun c n => (k3 c (mt hp.mem_iff.1 n)).trans (hc c).1⟩
  exact (k2 c (hp.mem_iff.2 m)).trans (by rw [(hc c).1, h1 c m]; rfl)

/-! ### Waiting channels that a STOP names -/

/-- Several channels leave the wait list: the generators and the classes are as they were, the list keeps the places of the other
channels, and the wait timers of those that leave have stopped. -/
theorem State.leaveWaitList_foldl (cs : List Chan) (s : State) :
    (cs.foldl State.leaveWaitList s).carb = { s.carb with waitList := s.carb.waitList.filter fun w => w.chan ∉ cs } ∧
      ∀ d, (cs.foldl State.leaveWaitList s).chan d
        = if d ∈ cs then { s.chan d with waitTimer := none } else s.chan d := by
  induction cs generalizing s with
  | nil => simp
  | cons c cs ih =>
    obtain ⟨hc, hd⟩ := ih (s.leaveWaitList c)
    refine ⟨?_, fun d => ?_⟩
    · rw [List.foldl_cons, hc]
      simp [State.leaveWaitList, State.setWaitList, List.filter_filter, not_or, Bool.and_comm]
    · rw [List.foldl_cons, hd]
      by_cases h : d = c <;> by_cases h' : d ∈ cs <;> simp [State.leaveWaitList, h, h']

/-- The waiting channels that a STOP names have left the wait list, and nothing else of the carriers has changed (R91, log 32). -/
theorem State.withdrawWaiters_leaves (s : State) (cs : List Chan) :
    (s.withdrawWaiters cs).carb.gens = s.carb.gens ∧ (s.withdrawWaiters cs).carb.classes = s.carb.classes ∧
      (s.withdrawWaiters cs).carb.waitList
        = s.carb.waitList.filter (fun w => !(cs.contains w.chan && decide ((s.chan w.chan).state = .carrierWait))) ∧
      ∀ d, (s.withdrawWaiters cs).chan d
        = if d ∈ cs ∧ (s.chan d).state = .carrierWait then { s.chan d with waitTimer := none } else s.chan d := by
  obtain ⟨hc, hd⟩ := State.leaveWaitList_foldl (cs.filter fun c => decide ((s.chan c).state = .carrierWait)) s
  refine ⟨(congrArg Carriers.gens hc).trans rfl, (congrArg Carriers.classes hc).trans rfl,
    (congrArg Carriers.waitList hc).trans ?_, fun d => (hd d).trans (by simp)⟩
  simp only [List.mem_filter, decide_eq_true_eq]
  congr 1
  funext w
  simp

/-- Where no channel that a STOP names waits, none leaves the wait list. -/
theorem State.withdrawWaiters_of_none {s : State} {cs : List Chan} (h : ∀ c ∈ cs, (s.chan c).state ≠ .carrierWait) :
    s.withdrawWaiters cs = s := by
  have e : (cs.filter fun c => decide ((s.chan c).state = .carrierWait)) = [] := by
    simpa [List.filter_eq_nil_iff] using h
  rw [State.withdrawWaiters, e, List.foldl_nil]

end Sys2Proof.Machine
end

