-- ==== Sys2Proof/Laws/Heads.lean ====
section
/-! SUPPORT. The head decision (R23): what it comes to for each kind of head, and the entry of a steady step (R50). -/

namespace Sys2Proof.Machine

/-- Entering a steady step: the step clock runs from the step's length, and the MARK is made if due (R50, R59). -/
theorem State.enterStep_steady {s : State} {c : Chan} {a : Active} {x : Step} (ha : (s.chan c).active = some a)
    (hx : s.currentStep a = some x) (hk : ∀ k, x.kind ≠ .carrier k) :
    s.enterStep c = ((s.modChan c (Channel.enterSteady (s.stepLength a.job.pattern x))).markEntry c a x, none) := by
  unfold State.enterStep
  simp only [ha, hx]

/-- An empty queue leaves the channel IDLE (R23). -/
theorem State.decideHead_nil (c : Chan) (s : State) : State.decideHead c [] s = s.modChan c Channel.becomeIdle := rfl

/-- A SENSE or GO head arms the channel (R23). -/
theorem State.decideHead_arms {j : Job} (c : Chan) (rest : List Job) (s : State) (h : j.start ≠ .now) :
    State.decideHead c (j :: rest) s = s.modChan c (Channel.armFor j rest) := by
  unfold State.decideHead
  split
  · contradiction
  · rfl

/-- A NOW head whose step 0 is a steady one starts and enters that step (R31, R32, R50). -/
theorem State.decideHead_starts {s : State} {c : Chan} {j : Job} {h : Header} {x : Step} {steps : List Step} {n : Nat}
    (rest : List Job) (hn : j.start = .now) (he : s.entry j.pattern = .ready h (x :: steps) n) (hk : ∀ k, x.kind ≠ .carrier k) :
    State.decideHead c (j :: rest) s
      = ((s.startJob c j rest).modChan c (Channel.enterSteady (x.duration.toNat * h.timeUnit.clocks))).markEntry c
          (j.starting h.repeats) x := by
  have hp : (s.startJob c j rest).ptab = s.ptab := by
    simp only [State.startJob, State.startReport]
    split <;> rfl
  have hc : ((s.startJob c j rest).chan c).active = some (j.starting h.repeats) := by
    simp only [State.startJob, State.startReport, State.repeatsOf, he]
    split <;> simp [Channel.starting]
  have e : (s.startJob c j rest).entry j.pattern = .ready h (x :: steps) n := by
    rw [State.entry, hp]
    exact he
  have hx : (s.startJob c j rest).currentStep (j.starting h.repeats) = some x := by
    simp [State.currentStep, Job.starting, e]
  have hl : (s.startJob c j rest).stepLength j.pattern x = x.duration.toNat * h.timeUnit.clocks := by
    simp [State.stepLength, State.unitClocks, e]
  unfold State.decideHead
  simp only [hn, State.enterStep_steady hc hx hk, Job.starting, hl]

/-- The armed head again: its window runs on (R23). -/
theorem armHead_again {h : ArmedHead} {j : Job} (e : h.number = j.number) : armHead (some h) j = h := by
  simp [armHead, e]

/-- Another head: its window starts afresh (R23, R35). -/
theorem armHead_afresh {old : Option ArmedHead} {j : Job} (e : ∀ h, old = some h → h.number ≠ j.number) :
    armHead old j = ⟨j.number, j.fullWindow, true⟩ := by
  cases old with
  | none => rfl
  | some h => simp [armHead, e h rfl]

end Sys2Proof.Machine
end

