-- ==== Sys2Proof/Laws/Spelling.lean ====
section
/-! SUPPORT. The bytes of a payload that spell a header, a job record or a strength of a stop are read as it (R10, R27, R62). -/

namespace Sys2Proof

open Machine

theorem Machine.index?_of_toNat {n : Nat} {b : Byte} {x : Fin n} (h : b.toNat = x.val) : index? n b = some x := by
  unfold index?
  rw [dif_pos (by omega)]
  exact congrArg some (Fin.ext h)

/-- A PAT_OPEN whose bytes spell an id and a header has valid fields, and they are that id and that header. -/
theorem OpenFields.Spells.openHeader? {p : OpenFields} {id : PatId} {h : Header} (hs : p.Spells id h) :
    Machine.openHeader? p = some (id, h) := by
  obtain ⟨hi, hc, h1, h2, hu, hl, hlt, hr, hf⟩ := hs
  obtain ⟨count, unit, loop, repeats, final⟩ := h
  have e1 : timeUnit? p.timeUnit = some unit := by rw [hu]; cases unit <;> rfl
  have e2 : finalAction? p.finalAction p.target = some final := by
    cases final with
    | finish => obtain ⟨ha, hb⟩ := hf; rw [ha, hb]; rfl
    | chain q => obtain ⟨ha, hb⟩ := hf; rw [ha]; simp [finalAction?, index?_of_toNat hb]
  simp only [Machine.openHeader?, index?_of_toNat hi, e1, e2, hc, hl, hr]
  exact if_pos ⟨h1, h2, hlt⟩

theorem Machine.playFlags?_of_toNat {b : Byte} {f : JobFlags}
    (h : b.toNat = f.preempt.toNat + 2 * f.reportStart.toNat + 4 * f.reportEnd.toNat + 8 * f.marks.toNat) :
    playFlags? b = some f := by
  obtain ⟨w, x, y, z⟩ := f
  have e : b = BitVec.ofNat 8 (w.toNat + 2 * x.toNat + 4 * y.toNat + 8 * z.toNat) := by
    rw [← h, BitVec.ofNat_toNat, BitVec.setWidth_eq]
  subst e
  cases w <;> cases x <;> cases y <;> cases z <;> decide

/-- A PLAY whose bytes spell a channel and a job record has valid fields, and they are that channel and that record, without a number. -/
theorem PlayFields.Spells.playJob? {p : PlayFields} {c : Chan} {j : Job} (hs : p.Spells c j) :
    Machine.playJob? p = some (c, { j with number := 0#16 }) := by
  obtain ⟨hc, hp, hq, hw, hst, ho, hf⟩ := hs
  obtain ⟨number, pattern, priority, start, window, override, flags⟩ := j
  obtain rfl : p.window = window := hw
  have e1 : playStart? p.start p.line p.edge p.window = some start := by
    cases start with
    | now => obtain ⟨a, b, d, e⟩ := hst; rw [a, b, d, show p.window = 0#16 from e]; rfl
    | go => obtain ⟨a, b, d⟩ := hst; rw [a, b, d]; rfl
    | sense l e =>
      obtain ⟨a, b, d⟩ := hst
      have : edge? p.edge = some e := by rw [d]; cases e <;> rfl
      rw [a]
      simp [playStart?, index?_of_toNat b, this]
  have e2 : playOverride? p.overrideFlag p.override = some override := by
    cases override with
    | none => obtain ⟨a, b⟩ := ho; rw [a, b]; rfl
    | some r => obtain ⟨a, b⟩ := ho; rw [a, b]; rfl
  simp only [Machine.playJob?, index?_of_toNat hc, index?_of_toNat hp, index?_of_toNat hq, e1, e2, playFlags?_of_toNat hf]

/-- A when byte that spells a strength of a stop is read as it. -/
theorem Machine.StopWhen.Spelled.stopWhen? {w : StopWhen} {b : Byte} (h : w.Spelled b) : Machine.stopWhen? b = some w := by
  cases w <;> subst h <;> rfl

end Sys2Proof
end

