-- ==== Sys2Proof/Laws/Tables.lean ====
section
/-! SUPPORT. The pattern table: the step pool's accounting when an entry is written (R3), and the lines when the steps of the jobs
that play stay (R100). -/

namespace Sys2Proof.Machine

theorem sum_map_set {α : Type} (f : α → Nat) (xs : List α) (n : Nat) (h : n < xs.length) (x : α) :
    ((xs.set n x).map f).sum + f xs[n] = (xs.map f).sum + f x := by
  induction xs generalizing n with
  | nil => cases h
  | cons y ys ih =>
    cases n with
    | zero => simp; omega
    | succ n =>
      have := ih n (by simpa using h)
      simp only [List.set_cons_succ, List.map_cons, List.sum_cons, List.getElem_cons_succ]
      omega

/-- Writing an entry returns what it had reserved and reserves what it now holds (R3). -/
theorem State.reservedSteps_setEntry (s : State) (p : PatId) (e : Entry) :
    (s.setEntry p e).ptab.reservedSteps + (s.entry p).reserved = s.ptab.reservedSteps + e.reserved := by
  have h := sum_map_set Entry.reserved s.ptab.entries.toList p.val (by simp) e
  simpa [PatternTable.reservedSteps, State.setEntry, State.entry, Vector.toList_set] using h

/-- The lines depend on the steps that the active jobs stand at, and on the channels and generators (R100). -/
theorem State.drivenLevel_of_steps {s t : State} (hc : t.chans = s.chans) (hg : t.carb = s.carb)
    (he : ∀ c a, (s.chan c).active = some a → t.currentStep a = s.currentStep a) (c : Chan) :
    t.drivenLevel c = s.drivenLevel c := by
  unfold State.drivenLevel State.level
  rw [State.chan_congr hc]
  cases ha : (s.chan c).active with
  | none => rfl
  | some a => simp only [State.playingLevel, he c a ha, State.gen_congr hg]

/-- The lines of a settled state stay as they are through an event that keeps every driven level. -/
theorem State.Settled.settle_outs_of_levels {s t : State} (hs : s.Settled) (h : ∀ c, t.drivenLevel c = s.drivenLevel c) :
    t.settle.outs = s.outs :=
  Vector.ext fun i hi => by
    have k := t.settle_outs ⟨i, hi⟩
    rw [h] at k
    exact k.trans (hs.outs ⟨i, hi⟩).symm

/-- No job names an entry whose reference count is 0 (R8). -/
theorem State.RefsOk.naming_eq_zero {s : State} (h : s.RefsOk) {p : PatId} (hz : (s.entry p).refs = 0) (c : Chan) :
    (s.chan c).naming p = 0 := by
  have hs : s.naming p = 0 := (h p).symm.trans hz
  rw [State.naming, List.sum_eq_zero_iff] at hs
  exact hs _ (List.mem_map.2 ⟨c, List.mem_finRange c, rfl⟩)

/-- Writing an entry that no job names keeps the step that every active job stands at. -/
theorem State.currentStep_of_unnamed {s t : State} {p : PatId} (he : ∀ q, q ≠ p → t.entry q = s.entry q)
    (hn : ∀ c, (s.chan c).naming p = 0) (c : Chan) (a : Active) (ha : (s.chan c).active = some a) :
    t.currentStep a = s.currentStep a := by
  have hne : a.job.pattern ≠ p := by
    intro e
    have := hn c
    simp [Channel.naming, ha, e] at this
  unfold State.currentStep
  rw [he _ hne]

end Sys2Proof.Machine
end

