-- ==== Sys2Proof/WellFormed.lean ====
section
/-! DEFINITION. Which terms of `Instr` stand for a row of the table: the checks that the types of the fields leave open. -/

namespace Sys2Proof

/-- A frame the receiver can complete: at most 48 payload bytes (R151, R152). -/
def Frame.wellFormed (f : Frame) : Bool :=
  decide (f.payload.length ≤ 48)

/-- A PAT_STEPS frame carries 1 to 8 step records (R12); the row CH_DISABLE is the one without force (R103); a frame is one
that the receiver can complete. Every other term is well formed: a field out of range is the command's to refuse (R169). -/
def Instr.wellFormed : Instr → Bool
  | .patSteps _ _ _ records => decide (1 ≤ records.length) && decide (records.length ≤ 8)
  | .chDisable _ _ force => decide (force ≠ 0x01#8)
  | .frameReceived f => f.wellFormed
  | _ => true

end Sys2Proof
end

