-- ==== Sys2Proof/Tests/Slice0.lean ====
section
/-! SUPPORT. Tests of the model on small states: the checks of `WellFormed`, one step each with results read from the manual, and for
every statement with hypotheses a witness that meets them, clause by clause. -/

namespace Sys2Proof.Tests

open Sys2Proof.Machine

/- The tests are elaborated one after the other: side by side their kernel evaluations take more memory than the check allows. -/
set_option Elab.async false

/-! ### Small states -/

/-- A command to unit 0 with tag 1. -/
def via : Via := ⟨0x00#8, 0x01#8⟩

/-- Two steps of 1 ms and 2 ms, ACTIVE with a mark and INACTIVE, played once. -/
def header : Header := ⟨2, .ms1, 0, 0x01#8, .finish⟩

def steps : List Step := [⟨.active, 1#16, true⟩, ⟨.inactive, 2#16, false⟩]

/-- A job of pattern 0 with all its reports on. -/
def job (number : Half) : Job := ⟨number, 0, 0, .now, 0#16, none, ⟨false, true, true, true⟩⟩

/-- A job at step 0 with 1 ms left, steady. -/
def playing (number : Half) : Active := ⟨job number, 0, 0x00#8, 0x01#8, 8000, .running, none, none, false⟩

/-- A channel with the default configuration in a state. -/
def channel (x : ChState) : Channel := Channel.empty x .default

/-- The part after reset with pattern 0 READY, named by some jobs, and CH0 as given. -/
def withChannel (refs : Nat) (ch : Channel) : State :=
  ((State.reset.setEntry 0 (.ready header steps refs)).setChan 0 ch).settle

def idlePart : State := withChannel 0 (channel .idle)

def playingPart : State := withChannel 1 { channel .playing with active := some (playing 1#16) }

theorem executes {s : State} (r : Request) (h : s.link = State.reset.link) : s.Executes via r := by
  constructor <;> simp [h, State.isForUs, HostLink.cachedReply, State.reset, State.afterReset, HostLink.reset, via, isBroadcast,
    unitValue, replyFlag, addresses]

def entryCheck : Entry → Bool
  | .free => true
  | .loading h xs => decide (1 ≤ h.count ∧ h.count ≤ 64 ∧ h.loopStart < h.count ∧ xs.length ≤ h.count)
  | .ready h xs _ => decide (1 ≤ h.count ∧ h.count ≤ 64 ∧ h.loopStart < h.count ∧ xs.length = h.count)

def isLoading : Entry → Bool
  | .loading _ _ => true
  | _ => false

def tableCheck (t : PatternTable) : Bool :=
  decide (t.reservedSteps ≤ 512) &&
    (List.finRange 32).all fun p => entryCheck t.entries[p] && (decide (t.load.map Load.id = some p) == isLoading t.entries[p])

theorem tableOk {t : PatternTable} (h : tableCheck t = true) : t.Ok := by
  simp only [tableCheck, Bool.and_eq_true, decide_eq_true_eq, List.all_eq_true, List.mem_finRange, true_implies, beq_iff_eq] at h
  refine ⟨fun p => ?_, h.1, fun p => ?_⟩
  · have := (h.2 p).1
    cases e : t.entries[p] <;> simp [e, entryCheck] at this <;> simp [Entry.Ok] <;> omega
  · have := (h.2 p).2
    cases e : t.entries[p] <;> simp [e, isLoading] at this ⊢ <;> exact this

/-! ### WellFormed: an ill-formed term for each check -/

theorem test_wellFormed_patSteps_empty : (Instr.patSteps via 0#8 0#8 []).wellFormed = false := by decide

theorem test_wellFormed_patSteps_nine :
    (Instr.patSteps via 0#8 0#8 (List.replicate 9 ⟨0#8, 0#8, 1#16⟩)).wellFormed = false := by decide

theorem test_wellFormed_chDisable_force : (Instr.chDisable via 0x01#8 0x01#8).wellFormed = false := by decide

theorem test_wellFormed_frame_oversize :
    (Instr.frameReceived ⟨0#8, 0#8, 0#8, List.replicate 49 0#8, 0#16⟩).wellFormed = false := by decide

theorem test_wellFormed_frame_longest :
    (Instr.frameReceived ⟨0#8, 0#8, 0#8, List.replicate 48 0#8, 0#16⟩).wellFormed = true := by decide

/-! ### PTAB -/

def openFields (count : Byte) : OpenFields := ⟨8#8, count, 0x03#8, 0#8, 1#8, 0#8, 0#8⟩

def longHeader (count : Nat) : Header := ⟨count, .ms1, 0, 0x01#8, .finish⟩

def longEntry (count : Nat) : Entry := .ready (longHeader count) (List.replicate count ⟨.active, 1#16, false⟩) 0

/-- Seven patterns of 64 steps, so that 64 pool steps are free. -/
def fullTable : State :=
  ((List.finRange 7).foldl (fun s i => s.setEntry (i.castLE (by decide)) (longEntry 64)) State.reset).settle

/-- The same with one more pattern of one step. -/
def fullerTable : State := (fullTable.setEntry 7 (longEntry 1)).settle

/-- Entry 8 LOADING in the load slot, with two steps declared and some loaded. -/
def loadingPart (loaded : List Step) (remaining : Nat) : State :=
  { State.reset.setEntry 8 (.loading header loaded) with
    ptab := { (State.reset.setEntry 8 (.loading header loaded)).ptab with load := some ⟨8, remaining⟩ } }.settle

theorem spells_open : (openFields 64#8).Spells 8 (longHeader 64) :=
  ⟨rfl, rfl, by decide, by decide, rfl, rfl, by decide, rfl, rfl, rfl⟩

theorem witness_PatOpenDecides_accepts :
    fullTable.Settled ∧ fullTable.RefsOk ∧ fullTable.ptab.Ok ∧ fullTable.Executes via (.patOpen (openFields 64#8)) ∧
      (openFields 64#8).Spells 8 (longHeader 64) ∧ fullTable.ptab.load = none ∧ fullTable.entry 8 = .free ∧
      fullTable.ptab.freeSteps + (fullTable.entry 8).reserved = 64 :=
  ⟨State.settled_settle _, by unfold State.RefsOk; decide +kernel, tableOk (by decide +kernel), executes _ rfl, spells_open,
    by decide +kernel, by decide +kernel, by decide +kernel⟩

theorem witness_PatOpenDecides_noRoom :
    fullerTable.Settled ∧ fullerTable.RefsOk ∧ fullerTable.ptab.Ok ∧ fullerTable.Executes via (.patOpen (openFields 64#8)) ∧
      (openFields 64#8).Spells 8 (longHeader 64) ∧ fullerTable.ptab.load = none ∧ fullerTable.entry 8 = .free ∧
      fullerTable.ptab.freeSteps + (fullerTable.entry 8).reserved = 63 :=
  ⟨State.settled_settle _, by unfold State.RefsOk; decide +kernel, tableOk (by decide +kernel), executes _ rfl, spells_open,
    by decide +kernel, by decide +kernel, by decide +kernel⟩

def openOnZero : OpenFields := ⟨0#8, 1#8, 0x03#8, 0#8, 1#8, 0#8, 0#8⟩

theorem spells_openOnZero : openOnZero.Spells 0 (longHeader 1) :=
  ⟨rfl, rfl, by decide, by decide, rfl, rfl, by decide, rfl, rfl, rfl⟩

theorem witness_PatOpenDecides_inUse :
    playingPart.Settled ∧ playingPart.RefsOk ∧ playingPart.ptab.Ok ∧ playingPart.Executes via (.patOpen openOnZero) ∧
      openOnZero.Spells 0 (longHeader 1) ∧ playingPart.ptab.load = none ∧
      playingPart.entry 0 = .ready header steps (0 + 1) :=
  ⟨State.settled_settle _, by unfold State.RefsOk; decide +kernel, tableOk (by decide +kernel), executes _ rfl,
    spells_openOnZero, by decide +kernel, by decide +kernel⟩

theorem witness_PatOpenDecides_loadPending :
    (loadingPart steps 1).Settled ∧ (loadingPart steps 1).RefsOk ∧ (loadingPart steps 1).ptab.Ok ∧
      (loadingPart steps 1).Executes via (.patOpen openOnZero) ∧ openOnZero.Spells 0 (longHeader 1) ∧
      (loadingPart steps 1).ptab.load = some ⟨8, 1⟩ :=
  ⟨State.settled_settle _, by unfold State.RefsOk; decide +kernel, tableOk (by decide +kernel), executes _ rfl,
    spells_openOnZero, by decide +kernel⟩

/-- A chain to the last id, with every other field at its lowest. -/
theorem spells_open_chain :
    (⟨31#8, 1#8, 0#8, 0#8, 0#8, 1#8, 31#8⟩ : OpenFields).Spells 31 ⟨1, .us1, 0, 0#8, .chain 31⟩ :=
  ⟨rfl, rfl, by decide, by decide, rfl, rfl, by decide, rfl, rfl, rfl⟩

def record : RawStep := ⟨0x01#8, 0#8, 2#16⟩

theorem witness_PatStepsDecides :
    (loadingPart [⟨.active, 1#16, true⟩] 1).Settled ∧
      (loadingPart [⟨.active, 1#16, true⟩] 1).Executes via (.patSteps 8#8 1#8 [record]) ∧ ((8 : PatId).val = (8#8).toNat) ∧
      validSteps? [record] = some [⟨.inactive, 2#16, false⟩] ∧
      (loadingPart [⟨.active, 1#16, true⟩] 1).ptab.load = some ⟨8, 1⟩ ∧
      (loadingPart [⟨.active, 1#16, true⟩] 1).entry 8 = .loading header [⟨.active, 1#16, true⟩] ∧
      (1#8).toNat + 1 ≤ header.count ∧ (1#8).toNat = 1 :=
  ⟨State.settled_settle _, executes _ rfl, by decide, by decide, by decide +kernel, by decide +kernel, by decide,
    by decide⟩

/-- The same frame again once its record is loaded, and with nothing loaded before it. -/
theorem witness_PatStepsDecides_resend_and_sequence :
    (loadingPart steps 1).Settled ∧ (loadingPart steps 1).Executes via (.patSteps 8#8 1#8 [record]) ∧
      (loadingPart steps 1).entry 8 = .loading header steps ∧ (1#8).toNat ≠ steps.length ∧ (1#8).toNat + 1 ≤ steps.length ∧
      steps[1]? = [(⟨.inactive, 2#16, false⟩ : Step)][0]? ∧
      (loadingPart [] 1).Settled ∧ (loadingPart [] 1).Executes via (.patSteps 8#8 1#8 [record]) ∧
      (loadingPart [] 1).entry 8 = .loading header [] :=
  ⟨State.settled_settle _, executes _ rfl, by decide +kernel, by decide, by decide, rfl, State.settled_settle _,
    executes _ rfl, by decide +kernel⟩

/-- An id that is not in the load slot, and an end one above the count of the open entry. -/
theorem witness_PatStepsDecides_notFound_and_badField :
    (loadingPart steps 1).Settled ∧ (loadingPart steps 1).Executes via (.patSteps 7#8 63#8 [record]) ∧
      (7 : PatId).val = (7#8).toNat ∧ (63#8).toNat + 1 = 64 ∧ (∀ l, (loadingPart steps 1).ptab.load = some l → l.id ≠ 7) ∧
      (loadingPart steps 1).Executes via (.patSteps 8#8 2#8 [record]) ∧ (loadingPart steps 1).ptab.load = some ⟨8, 1⟩ ∧
      (loadingPart steps 1).entry 8 = .loading header steps ∧ header.count < (2#8).toNat + 1 :=
  ⟨State.settled_settle _, executes _ rfl, rfl, rfl, fun l h => by cases h; decide, executes _ rfl, by decide +kernel,
    by decide +kernel, by decide⟩

theorem witness_PatSealDecides :
    ((loadingPart steps 1).Settled ∧ (loadingPart steps 1).RefsOk ∧ (loadingPart steps 1).Executes via (.patSeal 8#8) ∧
      (loadingPart steps 1).entry 8 = .loading header steps ∧ header.count ≤ steps.length) ∧
    ((loadingPart [] 1).Settled ∧ (loadingPart [] 1).RefsOk ∧ (loadingPart [] 1).Executes via (.patSeal 8#8) ∧
      (loadingPart [] 1).entry 8 = .loading header []) ∧
    (idlePart.Settled ∧ idlePart.RefsOk ∧ idlePart.Executes via (.patSeal 31#8) ∧ idlePart.Executes via (.patSeal 32#8) ∧
      idlePart.ptab.load = none) :=
  ⟨⟨State.settled_settle _, by unfold State.RefsOk; decide +kernel, executes _ rfl, by decide +kernel, by decide⟩,
    ⟨State.settled_settle _, by unfold State.RefsOk; decide +kernel, executes _ rfl, by decide +kernel⟩,
    State.settled_settle _, by unfold State.RefsOk; decide +kernel, executes _ rfl, executes _ rfl,
    by decide +kernel⟩

theorem witness_PatDiscardDecides :
    ((loadingPart steps 1).Settled ∧ (loadingPart steps 1).Executes via (.patDiscard 8#8) ∧
      (loadingPart steps 1).ptab.load = some ⟨8, 1⟩ ∧ (loadingPart steps 1).entry 8 = .loading header steps) ∧
    idlePart.Settled ∧ idlePart.Executes via (.patDiscard 31#8) ∧ idlePart.Executes via (.patDiscard 32#8) ∧
      idlePart.ptab.load = none :=
  ⟨⟨State.settled_settle _, executes _ rfl, by decide +kernel, by decide +kernel⟩, State.settled_settle _,
    executes _ rfl, executes _ rfl, by decide +kernel⟩

theorem witness_PatDeleteDecides :
    (idlePart.Settled ∧ idlePart.RefsOk ∧ idlePart.ptab.Ok ∧ idlePart.Executes via (.patDelete 0#8) ∧
      idlePart.entry 0 = .ready header steps 0 ∧ (idlePart.entry 31).isReady = false ∧
      idlePart.Executes via (.patDelete 31#8) ∧ idlePart.Executes via (.patDelete 32#8)) ∧
    playingPart.Settled ∧ playingPart.RefsOk ∧ playingPart.ptab.Ok ∧ playingPart.Executes via (.patDelete 0#8) ∧
      playingPart.entry 0 = .ready header steps (0 + 1) :=
  ⟨⟨State.settled_settle _, by unfold State.RefsOk; decide +kernel, tableOk (by decide +kernel), executes _ rfl,
      by decide +kernel, by decide +kernel, executes _ rfl, executes _ rfl⟩,
    State.settled_settle _, by unfold State.RefsOk; decide +kernel, tableOk (by decide +kernel), executes _ rfl,
    by decide +kernel⟩

theorem witness_PatInfoAndPatRead :
    idlePart.Settled ∧ idlePart.Executes via (.patInfo 0#8) ∧ idlePart.entry 0 = .ready header steps 0 ∧
      idlePart.entry 31 = .free ∧ idlePart.Executes via (.patRead 0#8 0#8 2#8) ∧ (0#8).toNat + (2#8).toNat = steps.length ∧
      idlePart.Executes via (.patRead 0#8 56#8 8#8) ∧ (56#8).toNat + (8#8).toNat = 64 ∧
      (loadingPart steps 1).Settled ∧ (loadingPart steps 1).Executes via (.patInfo 8#8) ∧
      (loadingPart steps 1).Executes via (.patRead 8#8 0#8 2#8) ∧ (loadingPart steps 1).entry 8 = .loading header steps :=
  ⟨State.settled_settle _, executes _ rfl, by decide +kernel, by decide +kernel, executes _ rfl,
    by decide, executes _ rfl, by decide, State.settled_settle _, executes _ rfl,
    executes _ rfl, by decide +kernel⟩

theorem witness_LoadTimerExpires :
    (loadingPart steps 0).Settled ∧ (loadingPart steps 0).ptab.load = some ⟨8, 0⟩ ∧
      (loadingPart steps 0).entry 8 = .loading header steps ∧
      (loadingPart steps 1).Settled ∧ (loadingPart steps 1).ptab.load = some ⟨8, 1⟩ ∧
      (loadingPart steps 1).entry 8 = .loading header steps :=
  ⟨State.settled_settle _, by decide +kernel, by decide +kernel, State.settled_settle _, by decide +kernel, by decide +kernel⟩

/-! ### CARB -/

/-- A part whose class 7 has a period of 16 and a high time of 15, with generators, a wait list, pattern 0 and CH0 as given. -/
def carrierPart (g0 g1 g2 : Gen) (ws : List Waiter) (refs : Nat) (ch : Channel) : State :=
  { (withChannel refs ch).setClass 7 (some ⟨16, 15⟩) with
    carb := ⟨((withChannel refs ch).setClass 7 (some ⟨16, 15⟩)).carb.classes, #v[g0, g1, g2], ws⟩ }.settle

def waitingChannel (timer : Nat) : Channel :=
  { channel .carrierWait with
    active := some { playing 1#16 with clock := .notStarted }, waitTimer := some timer }

def attachedChannel (gate : Gate) (remaining : Nat) : Channel :=
  { channel .playing with
    active := some { playing 1#16 with
      remaining := remaining, attach := some ⟨0, gate⟩, clock := match gate with | .opened => .running | .opening => .notStarted } }

def freePart : State := carrierPart .free .free .free [] 0 (channel .idle)

/-- Every generator busy with other classes, CH0 waiting for class 7. -/
def waitingPart (timer : Nat) : State :=
  carrierPart (.running 0 1 true) (.running 1 1 true) (.running 2 1 true) [⟨0, 7⟩] 1 (waitingChannel timer)

def runningPart (phase : Nat) (high : Bool) (gate : Gate) (remaining : Nat) : State :=
  carrierPart (.running 7 phase high) .free .free [] 1 (attachedChannel gate remaining)

theorem carriersOk {s : State} (h : (∀ g h k, (s.gen g).cls = some k → (s.gen h).cls = some k → g = h) ∧
    (∀ w ∈ s.carb.waitList, ∀ g, (s.gen g).cls ≠ some w.cls) ∧ (s.carb.waitList ≠ [] → ∀ g, s.gen g ≠ .free)) : s.CarriersOk :=
  ⟨h.1, h.2.1, h.2.2⟩

theorem witness_CarSetDecides :
    (freePart.Settled ∧ freePart.Executes via (.carSet 7#8 16#16 15#16) ∧ (7 : Cls).val = (7#8).toNat ∧ 16 ≤ (16#16).toNat ∧
      1 ≤ (15#16).toNat ∧ (15#16).toNat < (16#16).toNat ∧ ∀ g, (freePart.gen g).cls ≠ some 7) ∧
    (runningPart 0 true .opened 8).Settled ∧ (runningPart 0 true .opened 8).Executes via (.carSet 7#8 16#16 1#16) ∧
      ((runningPart 0 true .opened 8).gen 0).cls = some 7 :=
  ⟨⟨State.settled_settle _, executes _ rfl, by decide, by decide, by decide, by decide, by decide +kernel⟩,
    State.settled_settle _, executes _ rfl, by decide +kernel⟩

theorem witness_CarClearDecides :
    (freePart.Settled ∧ freePart.Executes via (.carClear 7#8) ∧ freePart.Executes via (.carClear 0#8) ∧
      (∀ g, (freePart.gen g).cls ≠ some 7) ∧ (∀ g, (freePart.gen g).cls ≠ some 0) ∧ freePart.carrierClass 0 = none ∧
      freePart.carrierClass 7 ≠ none ∧ ∀ w ∈ freePart.carb.waitList, w.cls ≠ 7) ∧
    ((runningPart 0 true .opened 8).Settled ∧ (runningPart 0 true .opened 8).Executes via (.carClear 7#8) ∧
      ((runningPart 0 true .opened 8).gen 0).cls = some 7) ∧
    (waitingPart 8).Settled ∧ (waitingPart 8).Executes via (.carClear 7#8) ∧ (∀ g, ((waitingPart 8).gen g).cls ≠ some 7) ∧
      (waitingPart 8).carrierClass 7 ≠ none ∧ (waitingPart 8).carb.waitList = [⟨0, 7⟩] ∧ (waitingPart 8).chan 0 = waitingChannel 8 :=
  ⟨⟨State.settled_settle _, executes _ rfl, executes _ rfl, by decide +kernel, by decide +kernel,
      by decide +kernel, by decide +kernel, by decide +kernel⟩,
    ⟨State.settled_settle _, executes _ rfl, by decide +kernel⟩,
    State.settled_settle _, executes _ rfl, by decide +kernel, by decide +kernel, by decide +kernel,
    by decide +kernel⟩

/-- CH0 stands at a step and asks for class 7: with the class on generator 0 at a cycle start and between two, with every generator
FREE, and with every generator busy. -/
theorem witness_CarrierRequestIsDecided :
    let ch := { channel .playing with active := some (playing 1#16) }
    let joins := fun phase => carrierPart (.running 7 phase true) .free .free [] 1 ch
    let allocates := carrierPart .free .free .free [] 1 ch
    let waits := carrierPart (.running 0 1 true) (.running 1 1 true) (.running 2 1 true) [] 1 ch
    (((joins 0).chan 0).active = some (playing 1#16) ∧ (joins 0).CarriersOk ∧ ((joins 0).gen 0).cls = some 7 ∧
      ((joins 0).gen 0).phase = 0) ∧
    (((joins 1).chan 0).active = some (playing 1#16) ∧ (joins 1).CarriersOk ∧ ((joins 1).gen 0).cls = some 7 ∧
      ((joins 1).gen 0).phase ≠ 0) ∧
    ((allocates.chan 0).active = some (playing 1#16) ∧ allocates.CarriersOk ∧ (∀ g, (allocates.gen g).cls ≠ some 7) ∧
      allocates.gen 0 = .free ∧ allocates.users 0 = []) ∧
    (waits.chan 0).active = some (playing 1#16) ∧ waits.CarriersOk ∧ ∀ g, (waits.gen g).cls ≠ some 7 ∧ waits.gen g ≠ .free :=
  ⟨⟨by decide +kernel, carriersOk (by decide +kernel), by decide +kernel, by decide +kernel⟩,
    ⟨by decide +kernel, carriersOk (by decide +kernel), by decide +kernel, by decide +kernel⟩,
    ⟨by decide +kernel, carriersOk (by decide +kernel), by decide +kernel, by decide +kernel, by decide +kernel⟩,
    by decide +kernel, carriersOk (by decide +kernel), by decide +kernel⟩

/-- The high portion one clock before its end and at its end. -/
theorem witness_CarrierCycle_high :
    (runningPart 14 true .opened 8).Settled ∧ ((runningPart 14 true .opened 8).gen 0).cls = some 7 ∧
      (runningPart 14 true .opened 8).carrierClass 7 = some ⟨16, 15⟩ ∧ ((runningPart 14 true .opened 8).gen 0).phase = 14 ∧
      (runningPart 15 true .opened 8).Settled ∧ (runningPart 15 true .opened 8).carrierClass 7 = some ⟨16, 15⟩ ∧
      (runningPart 15 true .opened 8).gen 0 = .running 7 15 true :=
  ⟨State.settled_settle _, by decide +kernel, by decide +kernel, by decide +kernel, State.settled_settle _, by decide +kernel,
    by decide +kernel⟩

/-- The cycle one clock before its end, and at its end while draining, with an opening gate and with an open one. -/
theorem witness_CarrierCycle_cycle :
    let draining := carrierPart (.draining 7 16 false) .free .free [] 0 (channel .idle)
    ((runningPart 15 false .opened 8).Settled ∧ (runningPart 15 false .opened 8).gen 0 = .running 7 15 false ∧
      (runningPart 15 false .opened 8).carrierClass 7 = some ⟨16, 15⟩) ∧
    (draining.Settled ∧ draining.gen 0 = .draining 7 16 false ∧ draining.carrierClass 7 = some ⟨16, 15⟩ ∧
      draining.carb.waitList = []) ∧
    ((runningPart 16 false .opening 8).Settled ∧ (runningPart 16 false .opening 8).gen 0 = .running 7 16 false ∧
      (runningPart 16 false .opening 8).carrierClass 7 = some ⟨16, 15⟩ ∧ (runningPart 16 false .opening 8).users 0 = [0] ∧
      (runningPart 16 false .opening 8).chan 0 = attachedChannel .opening 8) ∧
    (runningPart 16 false .opened 8).Settled ∧ (runningPart 16 false .opened 8).gen 0 = .running 7 16 false ∧
      (runningPart 16 false .opened 8).carrierClass 7 = some ⟨16, 15⟩ ∧ (runningPart 16 false .opened 8).users 0 = [0] ∧
      (runningPart 16 false .opened 8).chan 0 = attachedChannel .opened 8 :=
  ⟨⟨State.settled_settle _, by decide +kernel, by decide +kernel⟩,
    ⟨State.settled_settle _, by decide +kernel, by decide +kernel, by decide +kernel⟩,
    ⟨State.settled_settle _, by decide +kernel, by decide +kernel, by decide +kernel, by decide +kernel⟩,
    State.settled_settle _, by decide +kernel, by decide +kernel, by decide +kernel, by decide +kernel⟩

/-- Generator 0 with two users at a moment of its cycle: CH0 at an opening gate and CH1 at an open one. -/
def sharedPart (phase : Nat) : State :=
  ((runningPart phase false .opening 8).setChan 1 (attachedChannel .opened 8)).settle

theorem witness_CarrierCycle_users :
    (sharedPart 16).Settled ∧ (sharedPart 16).gen 0 = .running 7 16 false ∧ (sharedPart 16).carrierClass 7 = some ⟨16, 15⟩ ∧
      (sharedPart 16).users 0 = [0, 1] ∧ (sharedPart 16).chan 0 = attachedChannel .opening 8 ∧
      (sharedPart 16).chan 1 = attachedChannel .opened 8 ∧ ((sharedPart 16).chan 2).attachment ≠ some ⟨0, .opening⟩ :=
  ⟨State.settled_settle _, by decide +kernel, by decide +kernel, by decide +kernel, by decide +kernel, by decide +kernel,
    by decide +kernel⟩

def gatePart (remaining : Nat) (stop : Option PendingStop) (request : Bool) : State :=
  carrierPart (.running 7 16 false) .free .free [] 1
    { channel .playing with
      active := some { playing 1#16 with remaining := remaining, attach := some ⟨0, .opened⟩, stop := stop }, holdRequest := request }

theorem witness_GateCloses :
    ∀ s, s = gatePart 0 none false ∨ s = gatePart 1 (some ⟨.now, .stopped⟩) false ∨ s = gatePart 1 none true →
      s.Settled ∧ s.WaitersOk ∧ s.gen 0 = .running 7 16 false ∧ s.carrierClass 7 = some ⟨16, 15⟩ ∧ s.users 0 = [0] ∧
      (s.chan 0).state = .playing ∧ s.carb.waitList = [] ∧ s.entry 0 = .ready header steps 1 ∧
      (∃ a, (s.chan 0).active = some a ∧ a.attach = some ⟨0, .opened⟩ ∧ a.job.pattern = 0) ∧
      steps[0 + 1]? = some ⟨.inactive, 2#16, false⟩ := by
  rintro s (rfl | rfl | rfl) <;>
    exact ⟨State.settled_settle _, ⟨by decide +kernel, by decide +kernel⟩, by decide +kernel, by decide +kernel, by decide +kernel,
      by decide +kernel, by decide +kernel, by decide +kernel, ⟨_, rfl, rfl, rfl⟩, rfl⟩

/-- Two steps of class 7. -/
def carrierSteps : List Step := [⟨.carrier 7, 1#16, true⟩, ⟨.carrier 7, 2#16, false⟩]

/-- A part with those steps in pattern 0. -/
def carried (refs : Nat) (s : State) : State := (s.setEntry 0 (.ready header carrierSteps refs)).settle

theorem witness_GateCloses_continues :
    let s := carried 1 (gatePart 0 none false)
    s.Settled ∧ s.WaitersOk ∧ s.gen 0 = .running 7 16 false ∧ s.carrierClass 7 = some ⟨16, 15⟩ ∧ s.users 0 = [0] ∧
      s.chan 0 = { channel .playing with active := some { playing 1#16 with remaining := 0, attach := some ⟨0, .opened⟩ } } ∧
      s.carb.waitList = [] ∧ s.entry 0 = .ready header carrierSteps 1 ∧ carrierSteps[0]? = some ⟨.carrier 7, 1#16, true⟩ ∧
      carrierSteps[0 + 1]? = some ⟨.carrier 7, 2#16, false⟩ :=
  ⟨State.settled_settle _, ⟨by decide +kernel, by decide +kernel⟩, by decide +kernel, by decide +kernel, by decide +kernel,
    by decide +kernel, by decide +kernel, by decide +kernel, rfl, rfl⟩

/-- Two steps of classes 7 and 6. -/
def twoClassSteps : List Step := [⟨.carrier 7, 1#16, true⟩, ⟨.carrier 6, 2#16, true⟩]

/-- CH0 at the end of its step of class 7 at an open gate, CH1 waiting for the class given if there is one, pattern 0 as given. -/
def gateBefore (g1 g2 : Gen) (wanted : Option Cls) (xs : List Step) : State :=
  ((carrierPart (.running 7 16 false) g1 g2 (wanted.toList.map fun k => ⟨1, k⟩) 1 (attachedChannel .opened 0)).setChan 1
    (if wanted.isSome then waitingChannel 8 else channel .idle)).setEntry 0 (.ready header xs 1)

/-- A steady step follows with CH1 waiting; a step of class 6 follows, undefined, held by another generator, to be taken by a FREE one,
and with the freed generator granted to CH1 for class 5 and for class 6. -/
theorem witness_GateCloses_elsewhere :
    ∀ s xs, (s, xs) ∈ [
        ((gateBefore (.running 2 1 true) (.running 3 1 true) (some 5) steps).settle, steps),
        ((gateBefore (.running 2 1 true) .free none twoClassSteps).settle, twoClassSteps),
        (((gateBefore (.running 6 1 true) .free none twoClassSteps).setClass 6 (some ⟨16, 8⟩)).settle, twoClassSteps),
        (((gateBefore (.running 2 1 true) .free none twoClassSteps).setClass 6 (some ⟨16, 8⟩)).settle, twoClassSteps),
        (((gateBefore (.running 2 1 true) (.running 3 1 true) (some 5) twoClassSteps).setClass 6 (some ⟨16, 8⟩)).settle, twoClassSteps),
        (((gateBefore (.running 2 1 true) (.running 3 1 true) (some 6) twoClassSteps).setClass 6 (some ⟨16, 8⟩)).settle, twoClassSteps)] →
      s.Settled ∧ s.WaitersOk ∧ s.gen 0 = .running 7 16 false ∧ s.carrierClass 7 = some ⟨16, 15⟩ ∧ s.users 0 = [0] ∧
        s.chan 0 = attachedChannel .opened 0 ∧ s.entry 0 = .ready header xs 1 := by
  intro s xs h
  simp only [List.mem_cons, Prod.mk.injEq, List.not_mem_nil, or_false] at h
  rcases h with ⟨rfl, rfl⟩ | ⟨rfl, rfl⟩ | ⟨rfl, rfl⟩ | ⟨rfl, rfl⟩ | ⟨rfl, rfl⟩ | ⟨rfl, rfl⟩ <;>
    exact ⟨State.settled_settle _, ⟨by decide +kernel, by decide +kernel⟩, by decide +kernel, by decide +kernel, by decide +kernel,
      by decide +kernel, by decide +kernel⟩

/-- CH1's step has run out at an open gate of generator 0, CH0 at an opening gate of it. -/
theorem witness_GateCloses_shared :
    let s := ((sharedPart 16).setChan 1 (attachedChannel .opened 0)).settle
    s.Settled ∧ s.gen 0 = .running 7 16 false ∧ s.carrierClass 7 = some ⟨16, 15⟩ ∧ s.users 0 = [0, 1] ∧
      s.chan 1 = attachedChannel .opened 0 ∧ s.chan 0 = attachedChannel .opening 8 ∧ s.entry 0 = .ready header steps 1 :=
  ⟨State.settled_settle _, by decide +kernel, by decide +kernel, by decide +kernel, by decide +kernel, by decide +kernel,
    by decide +kernel⟩

/-- Generator 0 at its drain end, CH0 and CH1 waiting for class 0 and CH2 for class 1. -/
def grantPart : State :=
  ((((carrierPart (.draining 7 16 false) (.running 2 1 true) (.running 3 1 true) [⟨0, 0⟩, ⟨2, 1⟩, ⟨1, 0⟩] 3 (waitingChannel 8)).setChan
    1 (waitingChannel 0)).setChan 2 (waitingChannel 8))).settle

theorem witness_FreeGeneratorIsGranted :
    grantPart.Settled ∧ grantPart.WaitersOk ∧ grantPart.gen 0 = .draining 7 16 false ∧
      grantPart.carrierClass 7 = some ⟨16, 15⟩ ∧ grantPart.carb.waitList = ⟨0, 0⟩ :: [⟨2, 1⟩, ⟨1, 0⟩] :=
  ⟨State.settled_settle _, ⟨by decide +kernel, by decide +kernel⟩, by decide +kernel, by decide +kernel, by decide +kernel⟩

theorem witness_CarrierWaitExpires :
    ∀ n, n = 0 ∨ n = 1 → (waitingPart n).Settled ∧ (waitingPart n).chan 0 = waitingChannel n ∧
      (waitingChannel n).state = .carrierWait ∧ (waitingChannel n).waitTimer = some n ∧ (waitingChannel n).queue = [] := by
  rintro n (rfl | rfl) <;>
    exact ⟨State.settled_settle _, by decide +kernel, rfl, rfl, rfl⟩

/-! ### The channel controllers -/

/-- A PLAY of pattern 0 on CH0 with a priority, a start code, a window and flags. -/
def playFields (priority start : Byte) (window : Half) (flags : Byte) : PlayFields :=
  ⟨0#8, 0#8, priority, start, 0#8, 0#8, window, 0#8, 0#8, flags⟩

def playNow : PlayFields := playFields 3#8 0#8 0#16 0x0F#8

def played (start : StartCond) (window : Half) : Job := ⟨0#16, 0, 3, start, window, none, ⟨true, true, true, true⟩⟩

theorem spells_playNow : playNow.Spells 0 (played .now 0#16) :=
  ⟨rfl, rfl, rfl, rfl, ⟨rfl, rfl, rfl, rfl⟩, ⟨rfl, rfl⟩, rfl⟩

/-- A PLAY for GO with the longest window and the highest priority. -/
def playGo : PlayFields := playFields 3#8 2#8 0xFFFF#16 0x0F#8

theorem spells_playGo : playGo.Spells 0 (played .go 0xFFFF#16) :=
  ⟨rfl, rfl, rfl, rfl, ⟨rfl, rfl, rfl⟩, ⟨rfl, rfl⟩, rfl⟩

theorem spells_playLow : (playFields 0#8 0#8 0#16 0x0F#8).Spells 0 { played .now 0#16 with priority := 0 } :=
  ⟨rfl, rfl, rfl, rfl, ⟨rfl, rfl, rfl, rfl⟩, ⟨rfl, rfl⟩, rfl⟩

/-- A SENSE start, an override and no flags on the last channel. -/
theorem spells_playSense :
    (⟨7#8, 31#8, 3#8, 1#8, 7#8, 3#8, 0#16, 1#8, 255#8, 0#8⟩ : PlayFields).Spells 7
      ⟨0#16, 31, 3, .sense 7 .either, 0#16, some 255#8, ⟨false, false, false, false⟩⟩ :=
  ⟨rfl, rfl, rfl, rfl, ⟨rfl, rfl, rfl⟩, ⟨rfl, rfl⟩, rfl⟩

def fullQueue : List Job := [job 1#16, job 2#16, job 3#16, job 4#16]

/-- An ARMED channel whose head waits for GO, with a window and jobs behind it. -/
def armedChannel (window : Option Nat) (behind : List Job) : Channel :=
  { channel .armed with
    queue := { job 1#16 with start := .go, window := 1#16 } :: behind, armed := some ⟨1#16, window, false⟩ }

def armedPart (window : Option Nat) (behind : List Job) : State := withChannel (1 + behind.length) (armedChannel window behind)

theorem witness_PlayChecksInOrder :
    playNow.Spells 0 (played .now 0#16) ∧
    (∀ x, x = .off ∨ x = .fault ∨ x = .safe ∨ x = .idle → (withChannel 0 (channel x)).Settled ∧
      (withChannel 0 (channel x)).Executes via (.play playNow) ∧ ((withChannel 0 (channel x)).chan 0).state = x ∧
      ((withChannel 0 (channel x)).chan 0).queue.length < 4 ∧
      (withChannel 0 (channel x)).entry 0 = .ready header steps 0) ∧
    (PlayFields.Spells { playNow with pattern := 1#8 } 0 { played .now 0#16 with pattern := 1 } ∧
      idlePart.Executes via (.play { playNow with pattern := 1#8 }) ∧ idlePart.entry 1 = .free) ∧
    (withChannel 5 { channel .playing with active := some (playing 5#16), queue := fullQueue }).Settled ∧
      (withChannel 5 { channel .playing with active := some (playing 5#16), queue := fullQueue }).Executes via (.play playNow) ∧
      4 ≤ ((withChannel 5 { channel .playing with active := some (playing 5#16), queue := fullQueue }).chan 0).queue.length := by
  refine ⟨spells_playNow, ?_,
    ⟨⟨rfl, rfl, rfl, rfl, ⟨rfl, rfl, rfl, rfl⟩, ⟨rfl, rfl⟩, rfl⟩, executes _ rfl, by decide +kernel⟩, State.settled_settle _,
    executes _ rfl, by decide +kernel⟩
  rintro x (rfl | rfl | rfl | rfl) <;>
    exact ⟨State.settled_settle _, executes _ rfl, by decide +kernel, by decide +kernel, by decide +kernel⟩

theorem witness_PlayOnIdleChannel :
    idlePart.Settled ∧ idlePart.Executes via (.play playNow) ∧ playNow.Spells 0 (played .now 0#16) ∧
      idlePart.Executes via (.play playGo) ∧ playGo.Spells 0 (played .go 0xFFFF#16) ∧ idlePart.chan 0 = channel .idle ∧
      idlePart.entry 0 = .ready header (⟨.active, 1#16, true⟩ :: [⟨.inactive, 2#16, false⟩]) 0 :=
  ⟨State.settled_settle _, executes _ rfl, spells_playNow, executes _ rfl, spells_playGo, by decide +kernel, by decide +kernel⟩

/-- CH0 PLAYING with three jobs queued: a job of a higher priority with PREEMPT, and one of the active job's priority. -/
def busyPart : State :=
  withChannel 4 { channel .playing with active := some (playing 4#16), queue := [job 1#16, job 2#16, job 3#16] }

theorem waitersOk {s : State} (h : (∀ w ∈ s.carb.waitList, (s.chan w.chan).state = .carrierWait) ∧
    (s.carb.waitList.map Waiter.chan).Nodup) : s.WaitersOk :=
  ⟨h.1, h.2⟩

/-- CH0 IDLE and pattern 0 beginning with a step of class 7: the class undefined, with a FREE generator, with none, and held by
generator 0 at a cycle start and between two. -/
def idleCarried (g0 g1 g2 : Gen) : State := carried 0 (carrierPart g0 g1 g2 [] 0 (channel .idle))

theorem witness_PlayOnIdleChannel_carrier :
    (∀ s, s = carried 0 idlePart ∨ s = idleCarried (.running 0 1 true) .free .free ∨
        s = idleCarried (.running 0 1 true) (.running 1 1 true) (.draining 2 1 true) ∨ s = idleCarried (.draining 7 0 true) .free .free ∨
        s = idleCarried (.running 7 1 true) .free .free →
      s.Settled ∧ s.WaitersOk ∧ s.Executes via (.play playNow) ∧ s.chan 0 = channel .idle ∧
        s.entry 0 = .ready header (⟨.carrier 7, 1#16, true⟩ :: [⟨.carrier 7, 2#16, false⟩]) 0) ∧
    playNow.Spells 0 (played .now 0#16) ∧ (carried 0 idlePart).carrierClass 7 = none ∧
    (let s := idleCarried (.running 0 1 true) .free .free;
      s.carrierClass 7 ≠ none ∧ (∀ g, (s.gen g).cls ≠ some 7) ∧ s.gen 1 = .free ∧ ∀ g', g' < 1 → s.gen g' ≠ .free) ∧
    (let s := idleCarried (.running 0 1 true) (.running 1 1 true) (.draining 2 1 true);
      s.carrierClass 7 ≠ none ∧ (∀ g, (s.gen g).cls ≠ some 7) ∧ ∀ g, s.gen g ≠ .free) ∧
    (let s := idleCarried (.draining 7 0 true) .free .free;
      (s.gen 0).cls = some 7 ∧ (∀ g', (s.gen g').cls = some 7 → g' = 0) ∧ (s.gen 0).phase = 0) ∧
    (let s := idleCarried (.running 7 1 true) .free .free;
      (s.gen 0).cls = some 7 ∧ (∀ g', (s.gen g').cls = some 7 → g' = 0) ∧ (s.gen 0).phase ≠ 0) := by
  refine ⟨?_, spells_playNow, by decide +kernel, by decide +kernel, by decide +kernel, by decide +kernel, by decide +kernel⟩
  rintro s (rfl | rfl | rfl | rfl | rfl) <;>
    exact ⟨State.settled_settle _, waitersOk (by decide +kernel), executes _ rfl, by decide +kernel, by decide +kernel⟩

theorem numbersOk {s : State} (h : s.nextJob ≠ 0#16 ∧ 0#16 ∉ s.jobNumbers ∧ s.jobNumbers.Nodup) : s.NumbersOk :=
  ⟨h.1, h.2.1, h.2.2⟩

/-- A head of priority 0 on CH0, met by a PLAY of its own priority and by PLAYs of a higher one. -/
theorem witness_PlayOnIdleChannel_armed :
    let s := armedPart (some 8) []
    s.Settled ∧ (∀ d, (s.chan d).QueueOk) ∧ s.NumbersOk ∧ s.chan 0 = armedChannel (some 8) [] ∧
      s.entry 0 = .ready header (⟨.active, 1#16, true⟩ :: [⟨.inactive, 2#16, false⟩]) 1 ∧
      s.Executes via (.play (playFields 0#8 0#8 0#16 0x0F#8)) ∧
      (playFields 0#8 0#8 0#16 0x0F#8).Spells 0 { played .now 0#16 with priority := 0 } ∧
      s.Executes via (.play playNow) ∧ playNow.Spells 0 (played .now 0#16) ∧
      s.Executes via (.play playGo) ∧ playGo.Spells 0 (played .go 0xFFFF#16) ∧ (job 1#16).priority < (played .go 0xFFFF#16).priority :=
  ⟨State.settled_settle _, by unfold Channel.QueueOk; decide +kernel, numbersOk (by decide +kernel), by decide +kernel,
    by decide +kernel, executes _ rfl, spells_playLow, executes _ rfl, spells_playNow, executes _ rfl, spells_playGo, by decide⟩

theorem witness_PlayBehindActiveJob :
    busyPart.Settled ∧ (∀ c, (busyPart.chan c).QueueOk) ∧ busyPart.NumbersOk ∧ busyPart.Executes via (.play playNow) ∧
      playNow.Spells 0 (played .now 0#16) ∧ (playing 4#16).job.priority < (played .now 0#16).priority ∧
      busyPart.Executes via (.play (playFields 0#8 0#8 0#16 0x0F#8)) ∧
      (playFields 0#8 0#8 0#16 0x0F#8).Spells 0 { played .now 0#16 with priority := 0 } ∧ (playing 4#16).job.priority = 0 ∧
      (busyPart.chan 0).state = .playing ∧ (busyPart.chan 0).active = some (playing 4#16) ∧
      (busyPart.chan 0).queue.length = 3 ∧ busyPart.entry 0 = .ready header steps 4 :=
  ⟨State.settled_settle _, by unfold Channel.QueueOk; decide +kernel, numbersOk (by decide +kernel), executes _ rfl,
    spells_playNow, by decide, executes _ rfl, spells_playLow, rfl, by decide +kernel, by decide +kernel,
    by decide +kernel, by decide +kernel⟩

/-- CH0 HELD with an active job, or with none. -/
def heldPart (x : HoldContext) (a : Option Active) : State :=
  withChannel (if a.isSome then 1 else 0) { channel .held with active := a, hold := some x }

theorem witness_PlayBehindActiveJob_preempts_at_once :
    (∀ s, s = waitingPart 8 ∨ s = heldPart ⟨.playing, some .inStep⟩ (some (playing 1#16)) →
      s.Settled ∧ (∀ d, (s.chan d).QueueOk) ∧ s.NumbersOk ∧ s.WaitersOk ∧ s.Executes via (.play playGo) ∧
        (s.chan 0).queue = [] ∧ (s.chan 0).armed = none ∧ s.entry 0 = .ready header steps 1) ∧
    (waitingPart 8).chan 0 = waitingChannel 8 ∧
    (heldPart ⟨.playing, some .inStep⟩ (some (playing 1#16))).chan 0 =
      { channel .held with active := some (playing 1#16), hold := some ⟨.playing, some .inStep⟩ } ∧
    playGo.Spells 0 (played .go 0xFFFF#16) ∧ (played .go 0xFFFF#16).flags.preempt = true ∧
    (playing 1#16).job.priority < (played .go 0xFFFF#16).priority ∧ (playing 1#16).stop = none := by
  refine ⟨?_, by decide +kernel, by decide +kernel, spells_playGo, rfl, by decide, rfl⟩
  rintro s (rfl | rfl) <;>
    exact ⟨State.settled_settle _, by unfold Channel.QueueOk; decide +kernel, numbersOk (by decide +kernel),
      waitersOk (by decide +kernel), executes _ rfl, by decide +kernel, by decide +kernel, by decide +kernel⟩

theorem witness_QueueInsertion :
    [{ job 1#16 with priority := 2 }, { job 2#16 with priority := 1 }].Pairwise fun a b => b.priority ≤ a.priority := by decide

/-- The counter at its highest value, which a job holds: the search wraps to 1. -/
def wrapPart : State :=
  { withChannel 1 { channel .playing with active := some (playing 0xFFFF#16) } with nextJob := 0xFFFF#16 }

theorem witness_JobNumberAllocation :
    (∀ c, (wrapPart.chan c).QueueOk) ∧ wrapPart.NumbersOk ∧ 0xFFFF#16 ∈ wrapPart.jobNumbers ∧ wrapPart.allocatedNumber = 1#16 :=
  ⟨by unfold Channel.QueueOk; decide +kernel, numbersOk (by decide +kernel), by decide +kernel, by decide +kernel⟩

theorem steadyHead_nil (s : State) : s.SteadyHead [] := fun _ _ h => by simp at h

theorem steadyHead_go {j : Job} (s : State) (rest : List Job) (h : j.start ≠ .now) : s.SteadyHead (j :: rest) := by
  rintro _ _ ⟨rfl, rfl⟩ n
  exact absurd n h

theorem steadyHead_now {s : State} {j : Job} {n : Nat} (rest : List Job) (h : s.entry j.pattern = .ready header steps n) :
    s.SteadyHead (j :: rest) := by
  rintro _ _ ⟨rfl, rfl⟩ -
  exact ⟨_, _, _, _, h, nofun⟩

/-- A job for GO with the longest window. -/
def goJob (number : Half) : Job := { job number with start := .go, window := 0xFFFF#16 }

/-- A GO job and a NOW job behind the armed head that is cancelled. -/
theorem witness_CancelDecides_behind :
    ∀ j, j = goJob 2#16 ∨ j = job 2#16 →
      (armedPart (some 8) [j]).Settled ∧ (armedPart (some 8) [j]).NumbersOk ∧ (armedPart (some 8) [j]).Executes via (.cancel 0#8 1#16) ∧
        (armedPart (some 8) [j]).chan 0 = armedChannel (some 8) [j] ∧ (armedPart (some 8) [j]).SteadyHead [j] := by
  rintro j (rfl | rfl)
  · exact ⟨State.settled_settle _, numbersOk (by decide +kernel), executes _ rfl, by decide +kernel,
      steadyHead_go _ _ (by decide)⟩
  · exact ⟨State.settled_settle _, numbersOk (by decide +kernel), executes _ rfl, by decide +kernel,
      steadyHead_now (n := 2) _ (by decide +kernel)⟩

theorem witness_CancelDecides :
    (∀ n, n = 1#16 ∨ n = 4#16 ∨ n = 0xFFFF#16 → busyPart.Settled ∧ busyPart.NumbersOk ∧ busyPart.Executes via (.cancel 0#8 n) ∧
      n ≠ 0#16) ∧
    job 1#16 ∈ (busyPart.chan 0).queue ∧ (busyPart.chan 0).state ≠ .armed ∧
    (∀ j ∈ (busyPart.chan 0).queue, j.number ≠ 4#16 ∧ j.number ≠ 0xFFFF#16) ∧
    ((armedPart (some 8) []).Settled ∧ (armedPart (some 8) []).NumbersOk ∧ (armedPart (some 8) []).Executes via (.cancel 0#8 1#16) ∧
      (armedPart (some 8) []).chan 0 = armedChannel (some 8) []) ∧
    (armedPart (some 8) [job 2#16]).Settled ∧ (armedPart (some 8) [job 2#16]).NumbersOk ∧
      (armedPart (some 8) [job 2#16]).Executes via (.cancel 0#8 2#16) ∧
      (armedPart (some 8) [job 2#16]).chan 0 = armedChannel (some 8) [job 2#16] := by
  refine ⟨?_, by decide +kernel, by decide +kernel, by decide +kernel, ⟨State.settled_settle _, numbersOk (by decide +kernel),
    executes _ rfl, by decide +kernel⟩, State.settled_settle _, numbersOk (by decide +kernel),
    executes _ rfl, by decide +kernel⟩
  rintro n (rfl | rfl | rfl) <;>
    exact ⟨State.settled_settle _, numbersOk (by decide +kernel), executes _ rfl, by decide⟩

theorem witness_StopSetsPendingStops :
    playingPart.Settled ∧ playingPart.Executes via (.stop 0xFF#8 0x02#8 0x00#8) ∧ StopWhen.stepEnd.Spelled 0x02#8 ∧ StopWhen.passEnd.Spelled 0x01#8 ∧
      (∀ c : Chan, (playingPart.chan c).state ≠ .carrierWait ∧ (playingPart.chan c).state ≠ .held) ∧
      (playingPart.chan 0).state = .playing :=
  ⟨State.settled_settle _, executes _ rfl, rfl, rfl, by decide +kernel, by decide +kernel⟩

theorem witness_StopNowWithFlush :
    busyPart.Settled ∧ busyPart.WaitersOk ∧ busyPart.Executes via (.stop 0x01#8 0x03#8 0x01#8) ∧ maskChans 0x01#8 = [0] ∧
      (busyPart.chan 0).state = .playing ∧ (busyPart.chan 0).active = some (playing 4#16) ∧ (playing 4#16).attach = none :=
  ⟨State.settled_settle _, waitersOk (by decide +kernel), executes _ rfl, by decide +kernel, by decide +kernel,
    by decide +kernel, rfl⟩

/-- A moment before the end of a cycle of generator 0 is no boundary. -/
theorem notAtCycleEnd : ¬(runningPart 15 false .opening 8).AtCycleEnd 0 :=
  fun h => absurd ((State.atBoundary_iff (k := 7) (phase := 15) (high := false) (by decide +kernel)).2 h) (by decide +kernel)

/-- CH0 waiting, HELD, at an open gate, at an opening gate as the last user before a boundary, and at one beside another user. -/
theorem witness_StopNowWithFlush_elsewhere :
    (∀ s, s = waitingPart 8 ∨ s = heldPart ⟨.playing, some .inStep⟩ (some (playing 1#16)) ∨ s = gatePart 8 none false ∨
        s = runningPart 15 false .opening 8 ∨ s = sharedPart 16 →
      s.Settled ∧ s.WaitersOk ∧ s.Executes via (.stop 0x01#8 0x03#8 0x00#8) ∧ (s.chan 0).queue = []) ∧
    StopWhen.now.Spelled 0x03#8 ∧ maskChans 0x01#8 = [0] ∧ (waitingPart 8).chan 0 = waitingChannel 8 ∧
    (gatePart 8 none false).chan 0 = attachedChannel .opened 8 ∧ (runningPart 15 false .opening 8).chan 0 = attachedChannel .opening 8 ∧
    ¬(runningPart 15 false .opening 8).AtCycleEnd 0 ∧ (runningPart 15 false .opening 8).users 0 = [0] ∧
    (runningPart 15 false .opening 8).gen 0 = .running 7 15 false ∧
    (sharedPart 16).chan 0 = attachedChannel .opening 8 ∧ (sharedPart 16).users 0 ≠ [0] := by
  refine ⟨?_, rfl, by decide +kernel, by decide +kernel, by decide +kernel, by decide +kernel, notAtCycleEnd, by decide +kernel,
    by decide +kernel, by decide +kernel, by decide +kernel⟩
  rintro s (rfl | rfl | rfl | rfl | rfl) <;>
    exact ⟨State.settled_settle _, waitersOk (by decide +kernel), executes _ rfl, by decide +kernel⟩

theorem witness_HoldAndResume_hold :
    ∀ s, s = idlePart ∨ s = playingPart ∨ s = gatePart 8 none false →
      s.Settled ∧ s.WaitersOk ∧ maskChans 0x01#8 = [0] ∧ s.Executes via (.hold 0x01#8) ∧
      ((s.chan 0).state = .idle ∧ (s.chan 0).active = none ∨
        ∃ a, (s.chan 0).state = .playing ∧ (s.chan 0).active = some a ∧ a.stop = none ∧ a.remaining ≠ 0 ∧ a.clock = .running ∧
          (a.attach = none ∨ a.attach = some ⟨0, .opened⟩)) := by
  rintro s (rfl | rfl | rfl)
  · exact ⟨State.settled_settle _, waitersOk (by decide +kernel), by decide +kernel, executes _ rfl,
      .inl ⟨rfl, rfl⟩⟩
  all_goals exact ⟨State.settled_settle _, waitersOk (by decide +kernel), by decide +kernel, executes _ rfl,
      .inr ⟨_, rfl, rfl, rfl, by decide, rfl, by decide⟩⟩

theorem witness_HoldAndResume_resume :
    ∀ s, s = heldPart ⟨.playing, some .inStep⟩ (some (playing 1#16)) ∨ s = heldPart ⟨.idle, none⟩ none ∨
        s = gatePart 8 none true →
      s.Settled ∧ s.WaitersOk ∧ maskChans 0x01#8 = [0] ∧ s.Executes via (.resume 0x01#8) ∧
      ((s.chan 0).state = .held ∧ (s.chan 0).hold = some ⟨.playing, some .inStep⟩ ∧ (s.chan 0).active = some (playing 1#16) ∨
        (s.chan 0).state = .held ∧ (s.chan 0).hold = some ⟨.idle, none⟩ ∧ (s.chan 0).queue = [] ∨
        (s.chan 0).state = .playing ∧ (s.chan 0).holdRequest = true) := by
  rintro s (rfl | rfl | rfl) <;>
    exact ⟨State.settled_settle _, waitersOk (by decide +kernel), by decide +kernel, executes _ rfl,
      by decide +kernel⟩

/-- HOLD on an ARMED channel, on a waiting one, and at an opening gate as the last user and beside another. -/
theorem witness_HoldAndResume_hold_elsewhere :
    (∀ s, s = armedPart (some 8) [] ∨ s = waitingPart 8 ∨ s = runningPart 15 false .opening 8 ∨ s = sharedPart 16 →
      s.Settled ∧ s.WaitersOk ∧ s.Executes via (.hold 0x01#8)) ∧
    maskChans 0x01#8 = [0] ∧ (armedPart (some 8) []).chan 0 = armedChannel (some 8) [] ∧
    (waitingPart 8).chan 0 = waitingChannel 8 ∧ (runningPart 15 false .opening 8).chan 0 = attachedChannel .opening 8 ∧
    ¬(runningPart 15 false .opening 8).AtCycleEnd 0 ∧ (sharedPart 16).chan 0 = attachedChannel .opening 8 ∧
    (sharedPart 16).users 0 ≠ [0] := by
  refine ⟨?_, by decide +kernel, by decide +kernel, by decide +kernel, by decide +kernel, notAtCycleEnd, by decide +kernel,
    by decide +kernel⟩
  rintro s (rfl | rfl | rfl | rfl) <;> exact ⟨State.settled_settle _, waitersOk (by decide +kernel), executes _ rfl⟩

/-- CH0 HELD at a step of pattern 0: of class 7, with the class undefined or on the generators given, or steady. -/
def heldCarried (g0 g1 g2 : Gen) : State :=
  carried 1 (carrierPart g0 g1 g2 [] 1
    { channel .held with active := some (playing 1#16), hold := some ⟨.playing, some .inCarrier⟩ })

theorem witness_HoldAndResume_resume_elsewhere :
    (∀ s x, (s, x) = (heldPart ⟨.playing, some .atEntry⟩ (some (playing 1#16)), ResumePoint.atEntry) ∨
        (s, x) = (carried 1 (heldPart ⟨.playing, some .inCarrier⟩ (some (playing 1#16))), .inCarrier) ∨
        (s, x) = (heldCarried (.running 0 1 true) .free .free, .inCarrier) ∨
        (s, x) = (heldCarried (.running 7 1 true) .free .free, .inCarrier) ∨
        (s, x) = (heldCarried (.running 0 1 true) (.running 1 1 true) (.draining 2 1 true), .inCarrier) →
      s.Settled ∧ s.WaitersOk ∧ s.Executes via (.resume 0x01#8) ∧
        s.chan 0 = { channel .held with active := some (playing 1#16), hold := some ⟨.playing, some x⟩ }) ∧
    (heldPart ⟨.playing, some .atEntry⟩ (some (playing 1#16))).entry 0 = .ready header steps 1 ∧
    (carried 1 (heldPart ⟨.playing, some .inCarrier⟩ (some (playing 1#16)))).entry 0 = .ready header carrierSteps 1 ∧
    (carried 1 (heldPart ⟨.playing, some .inCarrier⟩ (some (playing 1#16)))).carrierClass 7 = none ∧
    (∀ s, s = heldCarried (.running 0 1 true) .free .free ∨ s = heldCarried (.running 7 1 true) .free .free ∨
        s = heldCarried (.running 0 1 true) (.running 1 1 true) (.draining 2 1 true) →
      s.entry 0 = .ready header carrierSteps 1 ∧ s.carrierClass 7 ≠ none) := by
  refine ⟨?_, by decide +kernel, by decide +kernel, by decide +kernel, ?_⟩
  · intro s x h
    simp only [Prod.mk.injEq] at h
    rcases h with ⟨rfl, rfl⟩ | ⟨rfl, rfl⟩ | ⟨rfl, rfl⟩ | ⟨rfl, rfl⟩ | ⟨rfl, rfl⟩ <;>
      exact ⟨State.settled_settle _, waitersOk (by decide +kernel), executes _ rfl, by decide +kernel⟩
  · rintro s (rfl | rfl | rfl) <;> decide +kernel

theorem witness_GoStartsHead :
    ((armedPart none []).Settled ∧ (armedPart none []).Executes via (.go 0x01#8) ∧ maskChans 0x01#8 = [0] ∧
      (armedPart none []).chan 0 = armedChannel none [] ∧
      (armedPart none []).entry 0 = .ready header (⟨.active, 1#16, true⟩ :: [⟨.inactive, 2#16, false⟩]) 1) ∧
    (armedPart none []).Executes via (.go 0xFE#8) ∧
      ∀ c : Chan, (0xFE#8).getLsbD c.val = true → ((armedPart none []).chan c).state ≠ .armed :=
  ⟨⟨State.settled_settle _, executes _ rfl, by decide +kernel, by decide +kernel, by decide +kernel⟩,
    executes _ rfl, by decide +kernel⟩

theorem witness_TriggerWindowExpires :
    ∀ n behind, (n = 0 ∨ n = 1) → (behind = [] ∨ behind = [goJob 2#16] ∨ behind = [job 2#16]) →
      (armedPart (some n) behind).Settled ∧ (armedPart (some n) behind).chan 0 = armedChannel (some n) behind ∧
        (armedPart (some n) behind).SteadyHead behind := by
  rintro n behind (rfl | rfl) (rfl | rfl | rfl) <;> refine ⟨State.settled_settle _, by decide +kernel, ?_⟩
  all_goals first
    | exact steadyHead_nil _
    | exact steadyHead_go _ _ (by decide)
    | exact steadyHead_now (n := 2) _ (by decide +kernel)

/-- CH0 at a steady step of pattern 0, whose header and playing fields are given; pattern 1 is the chain target. -/
def stepPart (h : Header) (a : Active) : State :=
  (((State.reset.setEntry 0 (.ready h steps 1)).setEntry 1 (.ready header steps 0)).setChan 0
    { channel .playing with active := some a }).settle

def atStep (index : Nat) (repeats : Byte) (remaining : Nat) (stop : Option PendingStop) : Active :=
  { playing 1#16 with stepIndex := index, repeats := repeats, remaining := remaining, stop := stop }

/-- CH0 HELD at the entry of the second step of class 7, with the generators as given. -/
def enteringPart (g0 g1 g2 : Gen) : State :=
  carried 1 (carrierPart g0 g1 g2 [] 1
    { channel .held with active := some (atStep 1 1#8 0 none), hold := some ⟨.playing, some .atEntry⟩ })

theorem stepPart_meets (h : Header) (a : Active)
    (hd : (stepPart h a).chan 0 = { channel .playing with active := some a } ∧ (stepPart h a).entry 0 = .ready h steps 1) :
    (stepPart h a).Settled ∧ ((stepPart h a).chan 0).state = .playing ∧ ((stepPart h a).chan 0).active = some a ∧
      (stepPart h a).entry 0 = .ready h steps 1 :=
  ⟨State.settled_settle _, by rw [hd.1]; rfl, by rw [hd.1], hd.2⟩

/-- Time left; the next step; the loop start after a pass that is not the last; the chain target after the last. -/
theorem witness_StepEndGoesOn :
    ∀ h a, (h, a) ∈ [(header, atStep 0 1#8 1 none), (header, atStep 0 1#8 0 none),
        (header, atStep 0 1#8 0 (some ⟨.passEnd, .stopped⟩)), (header, atStep 1 2#8 0 none),
        ({ header with final := .chain 1 }, atStep 1 1#8 0 none)] →
      ((stepPart h a).Settled ∧ ((stepPart h a).chan 0).state = .playing ∧ ((stepPart h a).chan 0).active = some a ∧
        (stepPart h a).entry 0 = .ready h steps 1) ∧
      a.attach = none ∧ a.clock = .running ∧ a.job.pattern = 0 ∧
      (stepPart h a).entry 1 = .ready header (⟨.active, 1#16, true⟩ :: [⟨.inactive, 2#16, false⟩]) 0 := by
  intro h a hm
  simp only [List.mem_cons, Prod.mk.injEq, List.not_mem_nil, or_false] at hm
  rcases hm with ⟨rfl, rfl⟩ | ⟨rfl, rfl⟩ | ⟨rfl, rfl⟩ | ⟨rfl, rfl⟩ | ⟨rfl, rfl⟩ <;>
    exact ⟨stepPart_meets _ _ (by decide +kernel), rfl, rfl, rfl, by decide +kernel⟩

/-- A pending stop at a step end and at the end of the pass; END after the last pass; a chain to a pattern that is not READY. -/
theorem witness_StepEndEndsJob :
    ∀ h a, (h, a) ∈ [(header, atStep 0 1#8 0 (some ⟨.stepEnd, .preempted⟩)), (header, atStep 1 1#8 0 (some ⟨.passEnd, .stopped⟩)),
        (header, atStep 1 1#8 0 none), ({ header with final := .chain 2 }, atStep 1 1#8 0 none)] →
      ((stepPart h a).Settled ∧ ((stepPart h a).chan 0).state = .playing ∧ ((stepPart h a).chan 0).active = some a ∧
        (stepPart h a).entry 0 = .ready h steps 1) ∧
      (stepPart h a).WaitersOk ∧ a.attach = none ∧ a.clock = .running ∧ a.remaining = 0 ∧
      ((stepPart h a).chan 0).queue = [] ∧ ((stepPart h a).entry 2).isReady = false := by
  intro h a hm
  simp only [List.mem_cons, Prod.mk.injEq, List.not_mem_nil, or_false] at hm
  rcases hm with ⟨rfl, rfl⟩ | ⟨rfl, rfl⟩ | ⟨rfl, rfl⟩ | ⟨rfl, rfl⟩ <;>
    exact ⟨stepPart_meets _ _ (by decide +kernel), waitersOk (by decide +kernel), rfl, rfl, rfl, by decide +kernel,
      by decide +kernel⟩

/-- The last step of a pass ends with a GO job and with a NOW job queued. -/
theorem witness_StepEndEndsJob_queued :
    ∀ j, j = goJob 2#16 ∨ j = job 2#16 →
      let ch := { channel .playing with active := some (atStep 1 1#8 0 none), queue := [j] }
      (withChannel 2 ch).Settled ∧ (withChannel 2 ch).WaitersOk ∧ (withChannel 2 ch).chan 0 = ch ∧
        (withChannel 2 ch).entry 0 = .ready header steps 2 ∧ (withChannel 2 ch).SteadyHead [j] := by
  rintro j (rfl | rfl)
  · exact ⟨State.settled_settle _, waitersOk (by decide +kernel), by decide +kernel, by decide +kernel,
      steadyHead_go _ _ (by decide)⟩
  · exact ⟨State.settled_settle _, waitersOk (by decide +kernel), by decide +kernel, by decide +kernel,
      steadyHead_now (n := 2) _ (by decide +kernel)⟩

/-- HOLD where it does nothing. -/
theorem witness_HoldAndResume_idle :
    ∀ x, x = .held ∨ x = .off ∨ x = .safe ∨ x = .fault →
      (withChannel 0 (channel x)).Settled ∧ (withChannel 0 (channel x)).WaitersOk ∧
        (withChannel 0 (channel x)).Executes via (.hold 0x01#8) ∧ (withChannel 0 (channel x)).Executes via (.resume 0x01#8) ∧
        ((withChannel 0 (channel x)).chan 0).state = x := by
  rintro x (rfl | rfl | rfl | rfl) <;>
    exact ⟨State.settled_settle _, waitersOk (by decide +kernel), executes _ rfl, executes _ rfl, by decide +kernel⟩

/-- HOLD with a pending stop at a steady step and at an opening gate, and at a step that is complete: the next step, the loop start, the
chain target, END, and a chain to a pattern that is not READY. -/
theorem witness_HoldAndResume_hold_ends :
    (∀ h a, (h, a) ∈ [(header, atStep 0 1#8 8 (some ⟨.passEnd, .preempted⟩)), (header, atStep 0 1#8 0 none),
        (header, atStep 1 2#8 0 none), ({ header with final := .chain 1 }, atStep 1 1#8 0 none), (header, atStep 1 1#8 0 none),
        ({ header with final := .chain 2 }, atStep 1 1#8 0 none)] →
      ((stepPart h a).Settled ∧ ((stepPart h a).chan 0).state = .playing ∧ ((stepPart h a).chan 0).active = some a ∧
        (stepPart h a).entry 0 = .ready h steps 1) ∧
      (stepPart h a).WaitersOk ∧ (stepPart h a).Executes via (.hold 0x01#8) ∧ a.attach = none ∧
        (stepPart h a).entry 1 = .ready header steps 0 ∧ ((stepPart h a).entry 2).isReady = false) ∧
    let opening := { attachedChannel .opening 8 with active := (attachedChannel .opening 8).active.map fun a =>
      { a with stop := some ⟨.stepEnd, .stopped⟩ } }
    let s := ((runningPart 15 false .opening 8).setChan 0 opening).settle
    s.Settled ∧ s.WaitersOk ∧ s.Executes via (.hold 0x01#8) ∧ s.chan 0 = opening ∧ s.users 0 = [0] ∧
      s.gen 0 = .running 7 15 false ∧ ¬s.AtCycleEnd 0 := by
  refine ⟨fun h a hm => ?_, State.settled_settle _, waitersOk (by decide +kernel), executes _ rfl, by decide +kernel,
    by decide +kernel, by decide +kernel, fun h =>
      absurd ((State.atBoundary_iff (k := 7) (phase := 15) (high := false) (by decide +kernel)).2 h) (by decide +kernel)⟩
  simp only [List.mem_cons, Prod.mk.injEq, List.not_mem_nil, or_false] at hm
  rcases hm with ⟨rfl, rfl⟩ | ⟨rfl, rfl⟩ | ⟨rfl, rfl⟩ | ⟨rfl, rfl⟩ | ⟨rfl, rfl⟩ | ⟨rfl, rfl⟩ <;>
    exact ⟨stepPart_meets _ _ (by decide +kernel), waitersOk (by decide +kernel), executes _ rfl, rfl, by decide +kernel,
      by decide +kernel⟩

/-- RESUME without an active job: the armed head again, another head for GO, and a NOW head. -/
theorem witness_HoldAndResume_resume_queued :
    ∀ j number, (j, number) ∈ [(goJob 2#16, 2#16), (goJob 2#16, 3#16), (job 2#16, 3#16)] →
      let ch := { channel .held with
        hold := some ⟨.armed, none⟩, queue := [j], armed := some ⟨number, some 8, false⟩ }
      (withChannel 1 ch).Settled ∧ (withChannel 1 ch).WaitersOk ∧ (withChannel 1 ch).Executes via (.resume 0x01#8) ∧
        (withChannel 1 ch).chan 0 = ch ∧ (withChannel 1 ch).SteadyHead [j] := by
  intro j number h
  simp only [List.mem_cons, Prod.mk.injEq, List.not_mem_nil, or_false] at h
  rcases h with ⟨rfl, rfl⟩ | ⟨rfl, rfl⟩ | ⟨rfl, rfl⟩ <;>
    refine ⟨State.settled_settle _, waitersOk (by decide +kernel), executes _ rfl, by decide +kernel, ?_⟩
  all_goals first
    | exact steadyHead_go _ _ (by decide)
    | exact steadyHead_now (n := 1) _ (by decide +kernel)

/-- RESUME at the entry of a step of class 7: undefined, on a FREE generator, on the generator that holds it, and waiting. -/
theorem witness_HoldAndResume_resume_entry :
    ∀ s, s ∈ [carried 1 (heldPart ⟨.playing, some .atEntry⟩ (some (atStep 1 1#8 0 none))),
        enteringPart (.running 0 1 true) .free .free, enteringPart (.running 7 1 true) .free .free,
        enteringPart (.running 0 1 true) (.running 1 1 true) (.draining 2 1 true)] →
      s.Settled ∧ s.WaitersOk ∧ s.Executes via (.resume 0x01#8) ∧ s.entry 0 = .ready header carrierSteps 1 ∧
        s.chan 0 = { channel .held with active := some (atStep 1 1#8 0 none), hold := some ⟨.playing, some .atEntry⟩ } := by
  intro s h
  simp only [List.mem_cons, List.not_mem_nil, or_false] at h
  rcases h with rfl | rfl | rfl | rfl <;>
    exact ⟨State.settled_settle _, waitersOk (by decide +kernel), executes _ rfl, by decide +kernel, by decide +kernel⟩

/-! ### The output lines -/

def configFields : ConfigFields := ⟨0#8, 1#8, 1#8, 1#8, 2#8, 1#8, 0#8, 255#16⟩

theorem witness_ChConfigDecides :
    (∀ x, x = .off ∨ x = .idle → (withChannel 0 (channel x)).Settled ∧
      (withChannel 0 (channel x)).Executes via (.chConfig configFields) ∧ ((withChannel 0 (channel x)).chan 0).state = x) ∧
    flag? configFields.polarity = some true ∧ flag? configFields.drive = some true ∧ flag? configFields.rest = some true ∧
      safeLevel? configFields.safe = some .active ∧ flag? configFields.readback = some true ∧
      flag? configFields.safeOnLease = some false ∧ configFields.waitLimit.toNat = 255 := by
  refine ⟨?_, by decide⟩
  rintro x (rfl | rfl) <;> exact ⟨State.settled_settle _, executes _ rfl, by decide +kernel⟩

/-- CH0 as given under a lease as given. -/
def leasePart (ch : Channel) (x : LeaseState) : State :=
  { withChannel 0 ch with lease := ⟨10, x⟩ }.settle

theorem witness_EnableAndClearFault :
    ∀ x l, (x = .off ∨ x = .fault) → (l = .expired ∨ l = .running 1) →
      (leasePart (channel x) l).Settled ∧ (leasePart (channel x) l).Executes via (.chEnable 0xFF#8) ∧
        (leasePart (channel x) l).Executes via (.clearFault 0xFF#8) ∧ ((leasePart (channel x) l).chan 0).state = x ∧
        ((leasePart (channel x) l).chan 0).config.safeOnLease = true ∧ (leasePart (channel x) l).lease.state = l := by
  rintro x l (rfl | rfl) (rfl | rfl) <;>
    exact ⟨State.settled_settle _, executes _ rfl, executes _ rfl, by decide +kernel,
      by decide +kernel, by decide +kernel⟩

theorem witness_DisableDecides :
    (idlePart.Settled ∧ idlePart.Executes via (.chDisable 0xFF#8 0x00#8) ∧ ∀ c, (idlePart.chan c).active = none ∧
      (idlePart.chan c).queue = []) ∧
    busyPart.Settled ∧ busyPart.Executes via (.chDisable 0x01#8 0x00#8) ∧ (busyPart.chan 0).active ≠ none ∧
      busyPart.Executes via (.chDisable 0x01#8 0x01#8) ∧ maskChans 0x01#8 = [0] ∧ (busyPart.chan 0).state ≠ .off ∧
      (busyPart.chan 1).state = .off :=
  ⟨⟨State.settled_settle _, executes _ rfl, by decide +kernel⟩, State.settled_settle _, executes _ rfl,
    by decide +kernel, executes _ rfl, by decide +kernel, by decide +kernel, by decide +kernel⟩

/-- CH0 at an open gate of generator 0, whose last user it is, one clock before a cycle boundary and at it, with CH1 waiting for class 0
or with nobody, under a lease that runs out. -/
def closingPart (phase : Nat) (waits : Bool) : State :=
  { (runningPart phase false .opened 8).setChan 1 (if waits then waitingChannel 8 else channel .idle) with
    carb := { (runningPart phase false .opened 8).carb with waitList := if waits then [⟨1, 0⟩] else [] }
    lease := ⟨10, .running 0⟩ }.settle

theorem closingPart_meets (waits : Bool) (goes : Chan → Bool) (h : goes 0 = true) (h1 : goes 1 = false) :
    (closingPart 15 waits).Deserted goes 0 ∧ ¬(closingPart 15 waits).AtCycleEnd 0 ∧
    (closingPart 16 waits).Deserted goes 0 ∧ (closingPart 16 waits).AtCycleEnd 0 ∧
    (closingPart 16 true).waitersLeft goes = [⟨1, 0⟩] ∧ (closingPart 16 false).waitersLeft goes = [] := by
  have e : ∀ phase, phase = 15 ∨ phase = 16 → (closingPart phase waits).gen 0 = .running 7 phase false ∧
      (closingPart phase waits).users 0 = [0] := by
    rintro phase (rfl | rfl) <;> cases waits <;> decide +kernel
  have d : ∀ phase, phase = 15 ∨ phase = 16 → (closingPart phase waits).Deserted goes 0 := fun phase hp => by
    simp [State.Deserted, (e phase hp).2, h]
  refine ⟨d 15 (.inl rfl), fun x => ?_, d 16 (.inr rfl), (State.atBoundary_iff (e 16 (.inr rfl)).1).1 ?_, ?_, rfl⟩
  · have := (State.atBoundary_iff (e 15 (.inl rfl)).1).2 x
    revert this
    cases waits <;> decide +kernel
  · cases waits <;> decide +kernel
  · have : (closingPart 16 true).carb.waitList = [⟨1, 0⟩] := by decide +kernel
    simp [State.waitersLeft, this, h1]

theorem witness_DisableDecides_forced :
    ∀ phase waits, (phase = 15 ∨ phase = 16) → (closingPart phase waits).Settled ∧
      (closingPart phase waits).Executes via (.chDisable 0x01#8 0x01#8) ∧ ((closingPart phase waits).chan 0).state = .playing := by
  rintro phase (_ | _) (rfl | rfl) <;> exact ⟨State.settled_settle _, executes _ rfl, by decide +kernel⟩

theorem witness_LinesFollowTheChannels :
    (∀ x, x ≠ .playing → (withChannel 0 (channel x)).Settled ∧ ((withChannel 0 (channel x)).chan 0).state = x) ∧
    (∀ i, i = 0 ∨ i = 1 → (stepPart header (atStep i 1#8 1 none)).Settled ∧
      ((stepPart header (atStep i 1#8 1 none)).chan 0).state = .playing ∧
      ((stepPart header (atStep i 1#8 1 none)).chan 0).active = some (atStep i 1#8 1 none) ∧
      (stepPart header (atStep i 1#8 1 none)).entry 0 = .ready header steps 1 ∧ i < steps.length) ∧
    ∀ gate, (runningPart 0 true gate 8).Settled ∧ (runningPart 0 true gate 8).chan 0 = attachedChannel gate 8 := by
  refine ⟨?_, ?_, ?_⟩
  · intro x hx
    cases x <;> first | exact absurd rfl hx | exact ⟨State.settled_settle _, by decide +kernel⟩
  · rintro i (rfl | rfl) <;>
      exact ⟨State.settled_settle _, by decide +kernel, by decide +kernel, by decide +kernel, by decide⟩
  · intro gate
    cases gate <;> exact ⟨State.settled_settle _, by decide +kernel⟩

/-- CH0 with readback on, with 10 µs of its step left and with one clock more. -/
theorem witness_ReadbackSample :
    ∀ n, n = 80 ∨ n = 81 →
      let a := { playing 1#16 with remaining := n, sampleDue := true }
      let s := withChannel 1 { channel .playing with active := some a }
      s.Settled ∧ s.WaitersOk ∧ (s.chan 0).state = .playing ∧ (s.chan 0).active = some a ∧ a.attach = none ∧
        a.clock = .running ∧ a.sampleDue = true ∧ s.outs[(0 : Chan)] = .high := by
  rintro n (rfl | rfl) <;>
    exact ⟨State.settled_settle _, waitersOk (by decide +kernel), by decide +kernel, by decide +kernel, rfl, rfl, rfl,
      by decide +kernel⟩

theorem witness_ReportingCommands :
    playingPart.Settled ∧ (0 : Chan).val = (0#8).toNat ∧ playingPart.Executes via .lines ∧
      playingPart.Executes via (.chStatus 0#8) ∧ playingPart.Executes via (.carStatus 0#8) ∧
      playingPart.Executes via (.carStatus 1#8) :=
  ⟨State.settled_settle _, rfl, executes _ rfl, executes _ rfl, executes _ rfl,
    executes _ rfl⟩

/-! ### The sense unit -/

/-- SNS0 as given, CH0 as given, some clocks after the last sample. -/
def sensePart (x : SenseLine) (grid refs : Nat) (ch : Channel) : State :=
  { withChannel refs ch with sense := ⟨(SenseUnit.reset 0#8).lines.set 0 x, grid⟩ }.settle

/-- At the sample and one clock before it: a line of filter time 1 at a first differing sample, at the second one, and at an equal
sample. -/
theorem witness_SenseSample :
    ∀ progress level grid, (progress = 0 ∨ progress = 1) → (grid = 799 ∨ grid = 800) →
      let s := sensePart ⟨.both, 1#8, false, level, progress⟩ grid 0 (channel .idle)
      s.Settled ∧ s.sense.grid = grid ∧ (∀ c, (s.chan c).state ≠ .armed) ∧
        s.senseLine 0 = ⟨.both, 1#8, false, level, progress⟩ := by
  rintro progress (_ | _) grid (rfl | rfl) (rfl | rfl) <;>
    exact ⟨State.settled_settle _, by decide +kernel, by decide +kernel, by decide +kernel⟩

def edgeChannel (sel : EdgeSel) : Channel :=
  { channel .armed with queue := [{ job 1#16 with start := .sense 0 sel }], armed := some ⟨1#16, none, false⟩ }

/-- A head that became the armed head at the moment of the edge. -/
theorem witness_EdgeStartsHead_fresh :
    let ch := { edgeChannel .rise with armed := some ⟨1#16, none, true⟩ }
    let s := sensePart ⟨.none, 0#8, false, false, 0⟩ 800 1 ch
    s.Settled ∧ s.sense.grid = 800 ∧ (∀ l, (s.senseLine l).selection = .none) ∧ (∀ d, d ≠ 0 → (s.chan d).state ≠ .armed) ∧
      s.chan 0 = ch ∧ (0x01#8).getLsbD 0 ≠ (s.senseLine 0).filtered ∧ (s.senseLine 0).filter = 0#8 :=
  ⟨State.settled_settle _, by decide +kernel, by decide +kernel, by decide +kernel, by decide +kernel, by decide +kernel,
    by decide +kernel⟩

theorem witness_EdgeStartsHead :
    ∀ sel, sel = .either ∨ sel = .rise →
      let s := sensePart ⟨.none, 0#8, false, false, 0⟩ 800 1 (edgeChannel sel)
      s.Settled ∧ s.sense.grid = 800 ∧ (∀ l, (s.senseLine l).selection = .none) ∧ (∀ d, d ≠ 0 → (s.chan d).state ≠ .armed) ∧
        s.chan 0 = edgeChannel sel ∧ (0x01#8).getLsbD 0 ≠ (s.senseLine 0).filtered ∧ (s.senseLine 0).filter = 0#8 ∧
        s.entry 0 = .ready header (⟨.active, 1#16, true⟩ :: [⟨.inactive, 2#16, false⟩]) 1 := by
  rintro sel (rfl | rfl) <;>
    exact ⟨State.settled_settle _, by decide +kernel, by decide +kernel, by decide +kernel, by decide +kernel, by decide +kernel,
      by decide +kernel, by decide +kernel⟩

theorem witness_SnConfigDecides :
    idlePart.Settled ∧ idlePart.Executes via (.snConfig 7#8 3#8 255#8) ∧ (7 : Line).val = (7#8).toNat ∧ (3#8).toNat < 4 ∧
      idlePart.Executes via (.snConfig 8#8 3#8 0#8) ∧ idlePart.Executes via (.snConfig 7#8 4#8 0#8) :=
  ⟨State.settled_settle _, executes _ rfl, rfl, by decide, executes _ rfl,
    executes _ rfl⟩

/-! ### RPT -/

def note (n : Nat) : Record := ⟨⟨.mark, 0#32, some 0, 1#16, 0#8, 0#8⟩, byteOf n⟩

/-- A report queue of some records, with a batch, at a part time. -/
def reportPart (n : Nat) (batch : Option Batch) (time : Word) : State :=
  { State.reset with rpt :=
      { ReportUnit.reset with queue := (List.range n).map note, batch := batch, holdTime := 1#8, partTime := time } }.settle

theorem reportsOk {u : ReportUnit} (n : Nat) (hn : n ≤ 4) (hb : u.batch = if n = 0 then none else some ⟨5#8, n⟩)
    (h : u.queue.length ≤ 32 ∧ (u.queue.filter fun r => !r.isMarker).length ≤ 31 ∧ markersApart u.queue = true ∧
      (u.queue.length = 32 → (u.queue.getLast?.any Record.isMarker) = true) ∧ n ≤ u.queue.length) : u.Ok := by
  refine ⟨h.1, h.2.1, h.2.2.1, h.2.2.2.1, fun b e => ?_⟩
  rw [hb] at e
  split at e
  · cases e
  · cases e
    exact ⟨by dsimp; omega, hn, h.2.2.2.2⟩

theorem witness_AttentionIsDecided :
    (reportPart 1 none 999#32).Settled ∧ (reportPart 1 none 1000#32).Settled ∧
      (∀ t, (reportPart 1 none t).rpt.queue[(reportPart 1 none t).rpt.batchSize]? = some (note 0)) ∧
      (reportPart 1 none 999#32).rpt.holdTime = 1#8 ∧ (reportPart 1 none 1000#32).rpt.ageReached = false ∧
      (∀ r, (reportPart 1 none 1000#32).Executes via r) ∧ 1 ≤ (31#8).toNat ∧ (31#8).toNat ≤ 31 :=
  ⟨State.settled_settle _, State.settled_settle _, fun _ => rfl, by decide +kernel, by decide +kernel,
    fun r => executes r rfl, by decide, by decide⟩

theorem witness_FetchDecides :
    (∀ k, k = 1#8 ∨ k = 4#8 → (reportPart 3 none 0#32).Settled ∧ (reportPart 3 none 0#32).rpt.Ok ∧
      (reportPart 3 none 0#32).Executes via (.fetch k) ∧ 1 ≤ k.toNat ∧ k.toNat ≤ 4) ∧
    (reportPart 3 (some ⟨5#8, 2⟩) 0#32).Settled ∧ (reportPart 3 (some ⟨5#8, 2⟩) 0#32).rpt.Ok ∧
      (reportPart 3 (some ⟨5#8, 2⟩) 0#32).Executes ⟨0#8, 5#8⟩ (.fetch 4#8) ∧
      (reportPart 3 (some ⟨5#8, 2⟩) 0#32).rpt.batch = some ⟨5#8, 2⟩ := by
  refine ⟨?_, State.settled_settle _, reportsOk 2 (by decide) (by decide +kernel) (by decide +kernel), ⟨by decide +kernel,
    by decide +kernel, by decide +kernel, by decide +kernel⟩, by decide +kernel⟩
  rintro k (rfl | rfl) <;>
    exact ⟨State.settled_settle _, reportsOk 0 (by decide) (by decide +kernel) (by decide +kernel), executes _ rfl,
      by decide, by decide⟩

theorem witness_AckDecides :
    ∀ tag, tag = 5#8 ∨ tag = 6#8 → (reportPart 3 (some ⟨5#8, 2⟩) 0#32).Settled ∧ (reportPart 3 (some ⟨5#8, 2⟩) 0#32).rpt.Ok ∧
      (reportPart 3 (some ⟨5#8, 2⟩) 0#32).Executes via (.ack tag) ∧
      (reportPart 3 (some ⟨5#8, 2⟩) 0#32).rpt.batch = some ⟨5#8, 2⟩ := by
  rintro tag (rfl | rfl) <;>
    exact ⟨State.settled_settle _, reportsOk 2 (by decide) (by decide +kernel) (by decide +kernel), executes _ rfl,
      by decide +kernel⟩

def marker : Record := ⟨⟨.overflow, 0#32, none, 0#16, 0xFF#8, 0#8⟩, 0#8⟩

/-- 30 records, 31 records, and 31 with a marker behind them. -/
theorem witness_ReportIsTaken :
    (reportPart 30 none 0#32).rpt.Ok ∧ (reportPart 30 none 0#32).rpt.queue.length = 30 ∧
      (reportPart 31 none 0#32).rpt.Ok ∧ (reportPart 31 none 0#32).rpt.queue.length = 31 ∧
      ({ (reportPart 31 none 0#32).rpt with queue := (reportPart 31 none 0#32).rpt.queue ++ [marker] } : ReportUnit).Ok ∧
      marker.report.kind = .overflow ∧ (note 0).report.kind ≠ .overflow :=
  ⟨reportsOk 0 (by decide) (by decide +kernel) (by decide +kernel), by decide +kernel,
    reportsOk 0 (by decide) (by decide +kernel) (by decide +kernel), by decide +kernel,
    reportsOk 0 (by decide) (by decide +kernel) (by decide +kernel), by decide, by decide⟩

/-! ### LEASE -/

theorem witness_LeaseDecides :
    ∀ n x, (n = 0#16 ∨ n = 9#16 ∨ n = 10#16 ∨ n = 60000#16 ∨ n = 60001#16) → (x = .off ∨ x = .expired) →
      (leasePart (channel .idle) x).Settled ∧ (leasePart (channel .idle) x).Executes via (.lease n) ∧
        (leasePart (channel .idle) x).lease.state = x := by
  rintro n x - (rfl | rfl) <;> exact ⟨State.settled_settle _, executes _ rfl, by decide +kernel⟩

theorem witness_LeaseExpires :
    ∀ n x, (n = 0 ∨ n = 1) → (x = .idle ∨ x = .fault) → (leasePart (channel x) (.running n)).Settled ∧
      (leasePart (channel x) (.running n)).lease.state = .running n ∧
      (∀ c, ((leasePart (channel x) (.running n)).chan c).active = none ∧
        ((leasePart (channel x) (.running n)).chan c).queue = []) ∧
      ((leasePart (channel x) (.running n)).chan 0).state = x ∧
      ((leasePart (channel x) (.running n)).chan 0).config.safeOnLease = true := by
  rintro n x (rfl | rfl) (rfl | rfl) <;>
    exact ⟨State.settled_settle _, by decide +kernel, by decide +kernel, by decide +kernel, by decide +kernel⟩

/-- A flagged channel holds the last gate of generator 0, one clock before a cycle boundary and at it. -/
theorem witness_LeaseExpires_forced :
    ∀ phase waits, (phase = 15 ∨ phase = 16) → (closingPart phase waits).Settled ∧
      (closingPart phase waits).lease.state = .running 0 ∧ ((closingPart phase waits).chan 0).config.safeOnLease = true ∧
      ((closingPart phase waits).chan 0).state = .playing := by
  rintro phase (_ | _) (rfl | rfl) <;> exact ⟨State.settled_settle _, by decide +kernel, by decide +kernel, by decide +kernel⟩

theorem witness_RecoverDecides :
    ∀ x, x = .expired ∨ x = .running 1 → (leasePart (channel .safe) x).Settled ∧ (leasePart (channel .safe) x).Executes via .recover ∧
      (leasePart (channel .safe) x).lease.state = x := by
  rintro x (rfl | rfl) <;> exact ⟨State.settled_settle _, executes _ rfl, by decide +kernel⟩

/-! ### The unit commands and LINK -/

theorem witness_UnitCommandsAnswer :
    playingPart.Settled ∧ playingPart.Executes via .ident ∧ playingPart.Executes via .time ∧
      playingPart.Executes via (.status 0#8) ∧ playingPart.Executes via (.status 1#8) :=
  ⟨State.settled_settle _, executes _ rfl, executes _ rfl, executes _ rfl,
    executes _ rfl⟩

/-- A reply of 8 bytes on the line at 19200 bit/s for some clocks, with a reset to follow, and a frame waiting. -/
def replyPart (reset : Option Scope) (elapsed : Nat) (buffer : Option Frame) : State :=
  { playingPart with link := { playingPart.link with
      sending := some ⟨List.replicate 8 0#8, reset, elapsed⟩, buffer := buffer } }.settle

/-- One clock before the reply's end and at its end, without a reset and with each. -/
theorem witness_ResetsTakeEffectAtReplyEnd :
    (playingPart.Settled ∧ playingPart.Executes via (.reset 1#8) ∧ playingPart.Executes via (.reset 2#8)) ∧
    ∀ x n, (n = 33333 ∨ n = 33334) → (replyPart x n none).Settled ∧
      (replyPart x n none).link.sending = some ⟨List.replicate 8 0#8, x, n⟩ ∧ (replyPart x n none).link.buffer = none ∧
      (replyPart x n none).link.rate = 0#2 ∧ (8 * 10 * 8000000 ≤ n * lineRate 0#2 ↔ n = 33334) := by
  refine ⟨⟨State.settled_settle _, executes _ rfl, executes _ rfl⟩, ?_⟩
  rintro x n (rfl | rfl) <;> exact ⟨State.settled_settle _, rfl, rfl, rfl, by decide⟩

/-- A frame waits behind the reply of each executed RESET. -/
theorem witness_ResetsTakeEffectAtReplyEnd_buffered :
    ∀ x, x = Scope.outputs ∨ x = .all →
      let s := replyPart (some x) 33334 (some (commandFrame via .ident))
      s.Settled ∧ s.link.sending = some ⟨List.replicate 8 0#8, some x, 33334⟩ ∧ s.link.buffer = some (commandFrame via .ident) ∧
        (Instr.ident via).request = some (via, .ident) ∧ Request.ident.Fits ∧ s.isForUs via.unitByte = true ∧
        8 * 10 * 8000000 ≤ 33334 * lineRate s.link.rate := by
  rintro x (rfl | rfl) <;>
    exact ⟨State.settled_settle _, rfl, rfl, rfl, trivial, by decide +kernel, by decide +kernel⟩

theorem witness_FrameIsDecided :
    playingPart.Settled ∧ (Instr.ident via).request = some (via, .ident) ∧
      (commandFrame via .ident).unitByte.getLsbD 3 = false ∧
      (commandFrame via .ident).unitByte.toNat / 16 = playingPart.link.address.toNat ∧
      crc16 (framedBytes 0#8 1#8 1#8 []) ≠ crc16 (framedBytes 0#8 1#8 1#8 []) + 1#16 ∧ (0x08#8).getLsbD 3 = true ∧
      (0x10#8).toNat / 16 ≠ playingPart.link.address.toNat :=
  ⟨State.settled_settle _, rfl, by decide, by decide +kernel, by decide +kernel, by decide, by decide +kernel⟩

/-- A code outside the catalogue, and a length that a code does not have. -/
theorem witness_FrameIsDecided_refused :
    ∀ f, f = (⟨0x00#8, 0#8, 0xFF#8, [], crc16 (framedBytes 0x00#8 0#8 0xFF#8 [])⟩ : Frame) ∨
        f = ⟨0x00#8, 0#8, 0x21#8, [0#8, 0#8], crc16 (framedBytes 0x00#8 0#8 0x21#8 [0#8, 0#8])⟩ →
      crc16 (framedBytes f.unitByte f.tag f.code f.payload) = f.crc ∧ f.unitByte.getLsbD 3 = false ∧ f.unitByte.toNat / 16 ≠ 15 ∧
      f.unitByte.toNat / 16 = playingPart.link.address.toNat ∧ playingPart.link.sending = none ∧ playingPart.link.cache = none ∧
      (f.code = 0xFF#8 → catalogueLengths f.code = []) ∧
      (f.code = 0x21#8 → catalogueLengths f.code ≠ [] ∧ f.payload.length ∉ catalogueLengths f.code) := by
  rintro f (rfl | rfl) <;> exact ⟨by dsimp only, by decide, by decide, by decide +kernel, by decide +kernel,
    by decide +kernel, by decide +kernel, by decide +kernel⟩

/-- A permitted broadcast on a part where the same command is executed at once. -/
theorem witness_WaitingRepeatedAndBroadcastFrames_permitted :
    (Instr.go ⟨0xF0#8, 0#8⟩ 0x01#8).request = some (⟨0xF0#8, 0#8⟩, .go 0x01#8) ∧ (Request.go 0x01#8).code = 0x48#8 ∧
      (Instr.go via 0x01#8).request = some (via, .go 0x01#8) ∧ (armedPart none []).Settled ∧ (Request.go 0x01#8).Fits ∧
      (armedPart none []).isForUs 0xF0#8 = true ∧ isBroadcast 0xF0#8 = true ∧ (armedPart none []).Executes via (.go 0x01#8) :=
  ⟨rfl, rfl, rfl, State.settled_settle _, trivial, by decide +kernel, by decide, executes _ rfl⟩

theorem witness_WaitingRepeatedAndBroadcastFrames :
    let ident : Instr := .ident via
    let frame := commandFrame via .ident
    let cached := { playingPart with link := { playingPart.link with cache := some ⟨1#8, frame.crc, [0#8]⟩ } }.settle
    ident.request = some (via, .ident) ∧ Request.ident.Fits ∧
    ((replyPart none 0 none).Settled ∧ (replyPart none 0 none).isForUs via.unitByte = true ∧
      (replyPart none 0 none).link.sending.isSome = true ∧ (replyPart none 0 none).link.buffer = none) ∧
    ((replyPart none 33334 (some frame)).Settled ∧ (replyPart none 33334 (some frame)).isForUs via.unitByte = true ∧
      (replyPart none 33334 (some frame)).link.sending = some ⟨List.replicate 8 0#8, none, 33334⟩ ∧
      (replyPart none 33334 (some frame)).link.buffer = some frame ∧ (replyPart none 33334 (some frame)).link.replyDue = true) ∧
    (cached.Settled ∧ cached.isForUs via.unitByte = true ∧ cached.link.sending = none ∧ isBroadcast via.unitByte = false ∧
      via.tag ≠ 0#8 ∧ cached.link.cache = some ⟨1#8, frame.crc, [0#8]⟩) ∧
    playingPart.Settled ∧ playingPart.isForUs 0xF0#8 = true ∧ isBroadcast 0xF0#8 = true ∧ playingPart.link.sending = none :=
  ⟨rfl, trivial, ⟨State.settled_settle _, by decide +kernel, by decide +kernel, by decide +kernel⟩,
    ⟨State.settled_settle _, by decide +kernel, by decide +kernel, by decide +kernel, by decide +kernel⟩,
    ⟨State.settled_settle _, by decide +kernel, by decide +kernel, by decide, by decide, by decide +kernel⟩,
    State.settled_settle _, by decide +kernel, by decide, by decide +kernel⟩

/-- The receiver in a state, with a gap timed. -/
def receiverPart (x : Receiver) (gap : Option Nat) : State :=
  { playingPart with link := { playingPart.link with receiver := x, gap := gap } }.settle

/-- Every state of the receiver, and the gap one clock before its limit and at it. -/
theorem witness_ReceiverWork :
    (∀ x ∈ [Receiver.hunt, .header [0#8, 1#8], .header [0#8, 1#8, 2#8], .payload 0#8 1#8 2#8 2 [], .payload 0#8 1#8 2#8 2 [3#8],
        .check 0#8 1#8 2#8 [] none], (receiverPart x (some 0)).Settled ∧ (receiverPart x (some 0)).link.receiver = x) ∧
    ∀ n, (n = 12499 ∨ n = 12500) → (receiverPart (.header []) (some n)).Settled ∧
      (receiverPart (.header []) (some n)).link.gap = some n ∧
      (3 * 10 * 8000000 ≤ n * lineRate (receiverPart (.header []) (some n)).link.rate ↔ n = 12500) := by
  refine ⟨fun x _ => ⟨State.settled_settle _, by simp [receiverPart]⟩, ?_⟩
  rintro n (rfl | rfl) <;> exact ⟨State.settled_settle _, by simp [receiverPart], by decide +kernel⟩

theorem witness_FrameBytesAreReceived :
    ∀ n, n = 0 ∨ n = 48 → playingPart.Settled ∧ playingPart.link.receiver = .hunt ∧ (List.replicate n 0xC3#8).length ≤ 48 := by
  rintro n (rfl | rfl) <;> exact ⟨State.settled_settle _, by decide +kernel, by decide⟩

theorem witness_RefusedCommandsChangeNothing :
    playingPart.Settled ∧ (Instr.recover via).request = some (via, .recover) ∧ Request.recover.Fits ∧
      playingPart.Executes via .recover :=
  ⟨State.settled_settle _, rfl, trivial, executes _ rfl⟩

theorem witness_BadFieldsAreRefused : playingPart.Settled ∧ ∀ r, playingPart.Executes via r :=
  ⟨State.settled_settle _, fun r => executes r rfl⟩

/-! ### The invariants, away from reset -/

/-- The load timer and the lease one clock before their ends; a reply and a gap one clock before theirs; a window at its last clock and
at 0 on an ARMED channel; generators at the last clock of a high portion and of a cycle; and a sample one
clock ahead. -/
theorem witness_OneReferenceClock :
    (loadingPart steps 1).pending = [] ∧ (loadingPart steps 1).ptab.load = some ⟨8, 0 + 1⟩ ∧
      (leasePart (channel .idle) (.running 1)).pending = [] ∧
      (leasePart (channel .idle) (.running 1)).lease.state = .running (0 + 1) ∧
    ((replyPart none 33333 none).pending = [] ∧
      (replyPart none 33333 none).link.sending = some ⟨List.replicate 8 0#8, none, 33333⟩) ∧
    ((receiverPart (.header []) (some 12499)).pending = [] ∧ (receiverPart (.header []) (some 12499)).link.gap = some 12499) ∧
    (∀ n, n = 0 ∨ n = 1 → (armedPart (some n) []).pending = [] ∧ (armedPart (some n) []).chan 0 = armedChannel (some n) []) ∧
    (∀ phase high, (phase, high) ∈ [(14, true), (15, false)] →
      (runningPart phase high .opened 8).pending = [] ∧ (runningPart phase high .opened 8).gen 0 = .running 7 phase high) ∧
    (sensePart ⟨.both, 1#8, false, true, 1⟩ 799 0 (channel .idle)).pending = [] ∧
      (sensePart ⟨.both, 1#8, false, true, 1⟩ 799 0 (channel .idle)).sense.grid = 799 := by
  refine ⟨by decide +kernel, by decide +kernel, by decide +kernel, by decide +kernel, ⟨rfl, rfl⟩, ⟨rfl, rfl⟩, ?_, ?_,
    by decide +kernel, by decide +kernel⟩
  · rintro n (rfl | rfl) <;> exact ⟨by decide +kernel, by decide +kernel⟩
  · intro phase high h
    simp only [List.mem_cons, Prod.mk.injEq, List.not_mem_nil, or_false] at h
    rcases h with ⟨rfl, rfl⟩ | ⟨rfl, rfl⟩ <;> exact ⟨by decide +kernel, by decide +kernel⟩

theorem witness_StepKeepsReports :
    (reportPart 3 (some ⟨5#8, 2⟩) 0#32).outbox = [] ∧ (reportPart 3 (some ⟨5#8, 2⟩) 0#32).rpt.Ok ∧
      ∃ t, step (reportPart 3 (some ⟨5#8, 2⟩) 0#32) = .next t :=
  ⟨rfl, reportsOk 2 (by decide) (by decide +kernel) (by decide +kernel), _, rfl⟩

theorem witness_StepKeepsTables :
    (∃ t, step (waitingPart 8) = .next t) ∧ (waitingPart 8).ptab.Ok ∧ (waitingPart 8).CarriersOk ∧
      (waitingPart 8).carrierClass 7 = some ⟨16, 15⟩ ∧ ∀ k, k ≠ 7 → (waitingPart 8).carrierClass k = none :=
  ⟨⟨_, rfl⟩, tableOk (by decide +kernel), carriersOk (by decide +kernel), by decide +kernel, by decide +kernel⟩

theorem witness_StepKeepsJobs :
    (∃ t, step busyPart = .next t) ∧ (∀ c, (busyPart.chan c).QueueOk) ∧ busyPart.NumbersOk :=
  ⟨⟨_, rfl⟩, by unfold Channel.QueueOk; decide +kernel, numbersOk (by decide +kernel)⟩

theorem channelsOk {s : State} {ch : Channel} (h0 : s.chan 0 = ch) (hr : ∀ c, c ≠ 0 → s.chan c = channel .off) (ho : ch.Ok)
    (hh : ch.hold.isSome ↔ ch.state = .held) : s.ChannelsOk := by
  intro c
  by_cases e : c = 0
  · subst e
    rw [h0]
    exact ⟨ho, hh⟩
  · rw [hr c e]
    simp [Channel.Ok, channel, Channel.empty]

theorem leaseOk {s : State} (h : (∀ c, (s.chan c).state = .safe → s.lease.state = .expired) ∧ s.lease.state ≠ .expired) :
    s.LeaseOk :=
  ⟨h.1, fun e => absurd e h.2⟩

theorem witness_StepKeepsChannels :
    ∀ s, s = waitingPart 8 ∨ s = busyPart ∨ s = armedPart (some 8) [] ∨ s = heldPart ⟨.idle, none⟩ none →
      (∃ t, step s = .next t) ∧ s.ChannelsOk ∧ s.WaitersOk ∧ s.LeaseOk ∧ s.RefsOk ∧ s.Settled := by
  rintro s (rfl | rfl | rfl | rfl)
  · exact ⟨⟨_, rfl⟩, channelsOk (ch := waitingChannel 8) (by decide +kernel) (by decide +kernel) ⟨rfl, rfl⟩ (by decide),
      waitersOk (by decide +kernel), leaseOk (by decide +kernel), by unfold State.RefsOk; decide +kernel, State.settled_settle _⟩
  · exact ⟨⟨_, rfl⟩, channelsOk (ch := { channel .playing with
      active := some (playing 4#16), queue := [job 1#16, job 2#16, job 3#16] }) (by decide +kernel) (by decide +kernel) rfl (by decide),
      waitersOk (by decide +kernel), leaseOk (by decide +kernel), by unfold State.RefsOk; decide +kernel, State.settled_settle _⟩
  · exact ⟨⟨_, rfl⟩, channelsOk (ch := armedChannel (some 8) []) (by decide +kernel) (by decide +kernel)
      ⟨rfl, _, _, rfl, by decide, rfl⟩ (by decide), waitersOk (by decide +kernel), leaseOk (by decide +kernel),
      by unfold State.RefsOk; decide +kernel, State.settled_settle _⟩
  · exact ⟨⟨_, rfl⟩, channelsOk (ch := { channel .held with hold := some ⟨.idle, none⟩ }) (by decide +kernel) (by decide +kernel)
      ⟨by decide, rfl⟩ (by decide), waitersOk (by decide +kernel), leaseOk (by decide +kernel),
      by unfold State.RefsOk; decide +kernel, State.settled_settle _⟩

/-- CH0 waiting while CH1, CH2 and CH3 use the three generators. -/
def crowdedPart : State :=
  let user := fun (n : Half) (g : GenId) =>
    { channel .playing with active := some { playing n with attach := some ⟨g, .opened⟩ } }
  ((((waitingPart 8).setEntry 0 (.ready header steps 4)).setChan 1 (user 2#16 0)).setChan 2 (user 3#16 1)
    |>.setChan 3 (user 4#16 2)).settle

theorem usersOk {s : State} (h : (∀ g, (s.gen g).code ≠ 0x01#8 → s.users g = []) ∧
    (∀ g, (s.gen g).code = 0x01#8 → s.users g ≠ []) ∧
    ∀ c, (s.chan c).state = .carrierWait → ∃ w ∈ s.carb.waitList, w.chan = c) : s.UsersOk :=
  ⟨h.1, h.2.1, h.2.2⟩

theorem witness_StepKeepsChannels_users :
    (∃ t, step crowdedPart = .next t) ∧ crowdedPart.ChannelsOk ∧ crowdedPart.WaitersOk ∧ crowdedPart.LeaseOk ∧
      crowdedPart.RefsOk ∧ crowdedPart.UsersOk ∧ crowdedPart.carb.waitList = [⟨0, 7⟩] := by
  refine ⟨⟨_, rfl⟩, ?_, waitersOk (by decide +kernel), leaseOk (by decide +kernel), by unfold State.RefsOk; decide +kernel,
    usersOk (by decide +kernel), by decide +kernel⟩
  have h : ∀ c, (crowdedPart.chan c).active.isSome = decide (c.val < 4) ∧ (crowdedPart.chan c).queue = [] ∧
      (crowdedPart.chan c).hold = none ∧ (crowdedPart.chan 0).attachment = none ∧
      (crowdedPart.chan c).state = if c = 0 then .carrierWait else if c.val < 4 then .playing else .off := by decide +kernel
  intro c
  obtain ⟨h1, h2, h3, h4, h5⟩ := h c
  by_cases c0 : c = 0
  · subst c0
    simp_all [Channel.Ok]
  · by_cases c4 : c.val < 4
    · rw [if_neg c0, if_pos c4] at h5
      simp [Channel.Ok, h5, h1, h3, c4]
    · rw [if_neg c0, if_neg c4] at h5
      have : (crowdedPart.chan c).active = none := by simpa [c4] using h1
      simp [Channel.Ok, h5, h2, h3, this]

/-! ### One step each, with results read from the manual -/

/-- The state after a command or an event. -/
def after (i : Instr) (s : State) : State :=
  match exec i s with
  | .next t => t
  | _ => s

/-- The payload of the reply that a command leaves in the cache. -/
def replied (i : Instr) (s : State) : List Byte :=
  match (after i s).link.cache with
  | some x => (x.reply.drop 5).dropLast.dropLast
  | none => []

/-- Section 11.1: "The PAT_OPEN reply therefore gives 506 free steps". -/
theorem test_patOpen_gives_506_free_steps :
    replied (.patOpen via ⟨3#8, 6#8, 0#8, 0#8, 1#8, 0#8, 0#8⟩) State.reset = [0x00#8, 0x01#8, 0xFA#8] := by decide +kernel

/-- Section 11.1: the PAT_STEPS reply gives the loaded count. -/
theorem test_patSteps_gives_loaded_count :
    replied (.patSteps via 8#8 1#8 [record]) (loadingPart [⟨.active, 1#16, true⟩] 1) = [0x00#8, 0x02#8] := by decide +kernel

/-- Section 11.5: a PAT_SEAL sent again finds the load taken, NOT_FOUND. -/
theorem test_patSeal_again_not_found :
    replied (.patSeal via 8#8) (((loadingPart steps 1).setEntry 8 (.ready header steps 0)).emptySlot) = [0x05#8] := by
  decide +kernel

/-- Section 11.1: an armed job is "at position 1", and no preemption is reported. -/
theorem test_play_go_position : replied (.play via (playFields 1#8 2#8 0#16 4#8)) idlePart = [0x00#8, 0x00#8, 0x01#8, 0x01#8, 0x00#8] := by
  decide +kernel

/-- Section 11.3: "PLAY …, PREEMPT" behind an active job of a lower priority: position 1, preempted yes. -/
theorem test_play_preempts :
    replied (.play via (playFields 3#8 0#8 0#16 5#8)) { playingPart with nextJob := 92#16 }
      = [0x00#8, 0x00#8, 0x5C#8, 0x01#8, 0x01#8] := by decide +kernel

/-- Section 11.4: PLAY in SAFE is answered SAFE_STATE. -/
theorem test_play_safe_state : replied (.play via playNow) (leasePart (channel .safe) .expired) = [0x0B#8] := by decide +kernel

/-- Section 11.4: LEASE under an EXPIRED lease is answered BAD_STATE. -/
theorem test_lease_expired_bad_state :
    replied (.lease via 1000#16) (leasePart (channel .safe) .expired) = [0x04#8] := by decide +kernel

/-- Section 11.4: RECOVER is answered with the mask of the SAFE channels, which are IDLE. -/
theorem test_recover_mask :
    replied (.recover via) (leasePart (channel .safe) .expired) = [0x00#8, 0x01#8] ∧
      ((after (.recover via) (leasePart (channel .safe) .expired)).chan 0).state = .idle := by decide +kernel

/-- Section 11.4: a FETCH of 4 sends the 3 records, and leaves none undelivered. -/
theorem test_fetch_three : (replied (.fetch via 4#8) (reportPart 3 none 0#32)).take 3 = [0x00#8, 0x03#8, 0x00#8] := by decide +kernel

/-- Section 11.4: ACK removes 3. -/
theorem test_ack_three : replied (.ack via 5#8) (reportPart 3 (some ⟨5#8, 3⟩) 0#32) = [0x00#8, 0x03#8, 0x00#8] := by decide +kernel

/-- Section 11.5: a re-sent PLAY "would have been answered from the cache", and no second job exists. -/
theorem test_play_resent_from_cache :
    (after (.play via playNow) (after (.replyEnd 0#8) (let t := after (.play via playNow) idlePart
      { t with link := { t.link with sending := t.link.sending.map fun x => { x with elapsed := 100000 } } }))).nextJob = 2#16 := by
  decide +kernel

/-- Section 11.2: a broadcast GO is executed without a reply. -/
theorem test_go_broadcast :
    ((after (.go ⟨0xF0#8, 0#8⟩ 0x01#8) (armedPart none [])).chan 0).state = .playing ∧
      (after (.go ⟨0xF0#8, 0#8⟩ 0x01#8) (armedPart none [])).link.sending = none := by decide +kernel

/-- R54: a chain target that is not READY ends the job CHAIN_MISSING, 06H. -/
theorem test_stepEnd_chain_missing :
    (after (.stepEnd 0) (stepPart { header with final := .chain 2 } (atStep 1 1#8 0 none))).rpt.queue.map (fun r => r.report.b)
      = [0x06#8] := by decide +kernel

/-- R113: with filter time 1 the second differing sample in a row produces the edge. -/
theorem test_sense_second_sample_edge :
    ((after (.senseSample 0x01#8) (sensePart ⟨.both, 1#8, false, true, 1⟩ 800 0 (channel .idle))).senseLine 0).filtered = true ∧
      ((after (.senseSample 0x01#8) (sensePart ⟨.both, 1#8, false, false, 0⟩ 800 0 (channel .idle))).senseLine 0).filtered = false := by
  decide +kernel

/-- R107: a readback mismatch at 10 µs before the step's end puts the channel into FAULT. -/
theorem test_readback_mismatch :
    ((after (.readbackSample 0 false) (withChannel 1 { channel .playing with
      active := some { playing 1#16 with remaining := 80, sampleDue := true } })).chan 0).state = .fault := by decide +kernel

/-- R82: a gate that is opening opens at the next cycle start. -/
theorem test_cycleEnd_opens_gate :
    (((after (.cycleEnd 0) (runningPart 16 false .opening 8)).chan 0).active.map Active.attach) = some (some ⟨0, .opened⟩) := by
  decide +kernel

/-- R87: the last user leaves at a cycle end, and the generator is FREE. -/
theorem test_cycleEnd_frees_generator : (after (.cycleEnd 0) (gatePart 0 none false)).gen 0 = .free := by decide +kernel

/-- R93: CH0 closes the last gate of generator 0 at a cycle end and CH2 is closed with it, while the wait list names CH2 for class 1,
CH4 for class 3 and CH3 for class 1: CH2 leaves the list and CH4 is the oldest waiter, in either order of the two. -/
theorem test_forceClose_grants_the_oldest_left :
    let s := { (((closingPart 16 false).setChan 2 (waitingChannel 8)).setChan 3 (waitingChannel 8)).setChan 4 (waitingChannel 8) with
      carb := { (closingPart 16 false).carb with waitList := [⟨2, 1⟩, ⟨4, 3⟩, ⟨3, 1⟩] } }
    ∀ cs, cs = [0, 2] ∨ cs = [2, 0] → (s.forceClose cs).gen 0 = .running 3 0 true ∧ (s.forceClose cs).carb.waitList = [⟨3, 1⟩] ∧
      ((s.forceClose cs).chan 4).state = .playing ∧ ((s.forceClose cs).chan 3).state = .carrierWait := by
  rintro s cs (rfl | rfl) <;> decide +kernel

/-- R91: a STOP NOW at a due cycle end of generator 0 names its last user CH0, whose gate is opening, and CH1, the oldest waiter; CH2 waits
for the same class as CH1, behind CH3 for another. In either order CH1's job ends at once, and the generator goes to CH3 without CH1. -/
theorem test_stop_grants_without_the_stopped :
    let s := (((runningPart 16 false .opening 8).setChan 1 (waitingChannel 8)).setChan 2 (waitingChannel 8)).setChan 3 (waitingChannel 8)
    let s := s.setWaitList [⟨1, 0⟩, ⟨3, 4⟩, ⟨2, 0⟩]
    ∀ cs, cs = [0, 1] ∨ cs = [1, 0] →
      let t := cs.foldl (fun u c => State.stopChannel s.chan .now false c u) (s.withdrawWaiters cs)
      t.gen 0 = .running 4 0 true ∧ t.carb.waitList = [⟨2, 0⟩] ∧ (t.chan 1).state = .idle ∧ (t.chan 3).state = .playing := by
  rintro s _ cs (rfl | rfl) <;> decide +kernel

/-- R152: a length above 48 aborts the frame and is counted. -/
theorem test_oversize_counted :
    (after (.characterReceived 49#8 true) (receiverPart (.header [0#8, 1#8, 2#8]) (some 0))).link.counters.oversize = 1#16 ∧
      (after (.characterReceived 49#8 true) (receiverPart (.header [0#8, 1#8, 2#8]) (some 0))).link.receiver = .hunt := by
  decide +kernel

end Sys2Proof.Tests
end

section
/-! PROOFS. PAT_SEAL and PAT_DISCARD (R14, R15): what the owning block answers, clause by clause; what an event can change that writes
the pattern table alone; and the two statements. -/

namespace Sys2Proof.Machine

/-- A byte out of range is no index. -/
theorem index?_of_le {n : Nat} {b : Byte} (h : n ≤ b.toNat) : index? n b = none :=
  dif_neg (by omega)

/-! ### The load slot -/

@[simp] theorem State.emptySlot_load (s : State) : s.emptySlot.ptab.load = none := rfl

@[simp] theorem State.entry_emptySlot (s : State) (p : PatId) : s.emptySlot.entry p = s.entry p := rfl

@[simp] theorem State.emptySlot_reservedSteps (s : State) : s.emptySlot.ptab.reservedSteps = s.ptab.reservedSteps := rfl

/-- An id that is not in the load slot has no open load (R4). -/
theorem State.openLoad_of_elsewhere {s : State} {p : PatId} (h : ∀ l, s.ptab.load = some l → l.id ≠ p) :
    s.openLoad p = none := by
  unfold State.openLoad
  split
  next l hl => rw [if_neg (h l hl)]
  next => rfl

/-- The open load of the id in the load slot is what its LOADING entry holds (R4). -/
theorem State.openLoad_of_loading {s : State} {p : PatId} {l : Load} {h : Header} {steps : List Step}
    (hl : s.ptab.load = some l) (hp : l.id = p) (he : s.entry p = .loading h steps) : s.openLoad p = some (h, steps) := by
  simp only [State.openLoad, hl, if_pos hp, he]

/-! ### What PTAB answers to PAT_SEAL and PAT_DISCARD -/

section Owner

variable {s : State} {id : Byte} {p : PatId} {h : Header} {steps : List Step}

theorem ownerPatSeal_badField (hid : 32 ≤ id.toNat) : ownerPatSeal id s = refuse s .badField := by
  simp only [ownerPatSeal, index?_of_le hid]

theorem ownerPatSeal_notFound (hp : p.val = id.toNat) (ho : s.openLoad p = none) :
    ownerPatSeal id s = refuse s .notFound := by
  simp only [ownerPatSeal, index?_of_toNat hp.symm, ho]

theorem ownerPatSeal_sequence (hp : p.val = id.toNat) (ho : s.openLoad p = some (h, steps)) (hc : steps.length < h.count) :
    ownerPatSeal id s = refuseSequence s steps.length := by
  simp only [ownerPatSeal, index?_of_toNat hp.symm, ho, if_pos hc]

theorem ownerPatSeal_ready (hp : p.val = id.toNat) (ho : s.openLoad p = some (h, steps)) (hc : h.count ≤ steps.length) :
    ownerPatSeal id s = answerOk (s.setEntry p (.ready h steps 0)).emptySlot [byteOf h.count] := by
  simp only [ownerPatSeal, index?_of_toNat hp.symm, ho, if_neg hc.not_gt]

theorem ownerPatDiscard_badField (hid : 32 ≤ id.toNat) : ownerPatDiscard id s = refuse s .badField := by
  simp only [ownerPatDiscard, index?_of_le hid]

theorem ownerPatDiscard_notFound (hp : p.val = id.toNat) (ho : s.openLoad p = none) :
    ownerPatDiscard id s = refuse s .notFound := by
  simp only [ownerPatDiscard, index?_of_toNat hp.symm, ho]

theorem ownerPatDiscard_free (hp : p.val = id.toNat) (ho : s.openLoad p = some (h, steps)) :
    ownerPatDiscard id s = answerOk (s.setEntry p .free).emptySlot [] := by
  simp only [ownerPatDiscard, index?_of_toNat hp.symm, ho]

end Owner

/-! ### An event that writes the pattern table alone -/

section Event

variable {i : Instr} {v : Via} {r : Request} {s t u : State}

/-- The one next state of a command that the owning block refuses (R170). -/
theorem refused_of_exec (hs : s.Settled) (hi : i.request = some (v, r)) (hr : r.Fits) (h : s.Executes v r)
    (ht : exec i s = .next t) {status : Status} {more : List Byte} (ho : owner r v.tag s = ⟨s, status.code :: more, none⟩) :
    s.Refused t v r status more := by
  obtain ⟨t', ht', hk⟩ := exec_refused hs hi hr h ho
  cases ht.symm.trans ht'
  exact hk

/-- In a settled state an event that writes the pattern table alone, and leaves every active job the step that it stands at, changes
nothing besides: it drives no line (R100) and makes no report. -/
theorem State.Settled.keepsAllBut_patterns (hs : s.Settled) (hu : u = { s with ptab := u.ptab })
    (hsteps : ∀ c a, (s.chan c).active = some a → u.currentStep a = s.currentStep a) :
    s.KeepsAllBut u.settle [.link, .patterns] := by
  have hchans : u.chans = s.chans := by rw [hu]
  have hcarb : u.carb = s.carb := by rw [hu]
  have hrpt : u.rpt = s.rpt := by rw [hu]
  have hout : u.outbox = [] := by rw [hu]; exact hs.outbox
  refine ⟨fun b hb => ?_, by rw [State.settle_clock, hu], by rw [State.settle_pending, hu]⟩
  cases b with
  | patterns | link => simp at hb
  | channels => exact u.settle_chans.trans hchans
  | jobCounter => exact u.settle_nextJob.trans (by rw [hu])
  | carriers => exact u.settle_carb.trans hcarb
  | outputs => exact hs.settle_outs_of_levels (State.drivenLevel_of_steps hchans hcarb hsteps)
  | sense => exact u.settle_sense.trans (by rw [hu])
  | reports => exact hs.settle_rpt hout hrpt
  | lease => exact u.settle_lease.trans (by rw [hu])
  | choices => exact (State.settle_choices_of_outbox_nil hout).trans (by rw [hu])

/-- The one next state of a command that the owning block answers OK, having written the pattern table alone. -/
theorem answered_of_exec_patterns (hs : s.Settled) (hi : i.request = some (v, r)) (hr : r.Fits) (h : s.Executes v r)
    (ht : exec i s = .next t) {fields : List Byte} (ho : owner r v.tag s = answerOk u fields)
    (hu : u = { s with ptab := u.ptab })
    (hsteps : ∀ c a, (s.chan c).active = some a → u.currentStep a = s.currentStep a) :
    s.Answered t v r fields [.patterns] ∧ t.ptab = u.ptab := by
  obtain ⟨t', ht', ha, hp⟩ := exec_answered hi hr h ho (by rw [hu]) (hs.keepsAllBut_patterns hu hsteps)
  cases ht.symm.trans ht'
  exact ⟨ha, by rw [hp]; exact u.settle_ptab⟩

/-- Writing an entry that was not READY and does not become READY keeps the step that every active job stands at. -/
theorem State.currentStep_of_not_ready {p : PatId} (he : ∀ q, q ≠ p → t.entry q = s.entry q)
    (hs : (s.entry p).isReady = false) (ht : (t.entry p).isReady = false) (a : Active) :
    t.currentStep a = s.currentStep a := by
  have hnone : ∀ w : State, (w.entry p).isReady = false → a.job.pattern = p → w.currentStep a = none := by
    intro w hw e
    unfold State.currentStep
    rw [e]
    cases hp : w.entry p with
    | free | loading => rfl
    | ready => rw [hp] at hw; cases hw
  by_cases e : a.job.pattern = p
  · rw [hnone s hs e, hnone t ht e]
  · unfold State.currentStep
    rw [he _ e]

end Event

/-! ### The end of a load: its entry written and the load slot made empty -/

section CloseLoad

variable (s : State) (p : PatId) (e : Entry)

theorem State.entry_closeLoad_same : (s.setEntry p e).emptySlot.entry p = e := by simp

theorem State.entry_closeLoad_other (q : PatId) (h : q ≠ p) : (s.setEntry p e).emptySlot.entry q = s.entry q := by
  simp [h]

end CloseLoad

/-! ### The statements -/

/-- Settles O7: the clauses of R14 are the four answers of PTAB; a LOADING entry counts no jobs, so none stands at a step of the new
READY entry and no line moves. -/
theorem patSealDecides : Obligations.PatSealDecides := by
  intro s v id hs hrefs hx
  have hi : Instr.request (.patSeal v id) = some (v, .patSeal id) := rfl
  have hr : Request.Fits (.patSeal id) := trivial
  obtain ⟨t, ht⟩ : ∃ t, exec (.patSeal v id) s = .next t := ⟨_, exec_of_executes hi hr hx⟩
  refine ⟨t, ht, fun hid => refused_of_exec hs hi hr hx ht (ownerPatSeal_badField hid), fun p hp =>
    ⟨fun hn => refused_of_exec hs hi hr hx ht (ownerPatSeal_notFound hp (State.openLoad_of_elsewhere hn)), ?_⟩⟩
  intro l h steps hl hid he
  have hopen := State.openLoad_of_loading hl hid he
  refine ⟨fun hc => refused_of_exec hs hi hr hx ht (ownerPatSeal_sequence hp hopen hc), fun hc => ?_⟩
  have hunnamed := hrefs.naming_eq_zero (p := p) (by rw [he]; rfl)
  obtain ⟨ha, hptab⟩ := answered_of_exec_patterns hs hi hr hx ht (ownerPatSeal_ready hp hopen hc) rfl
    (State.currentStep_of_unnamed (s.entry_closeLoad_other p _) hunnamed)
  refine ⟨ha, ?_, fun q hq => ?_, by simp [hptab]⟩
  · exact (State.entry_congr hptab p).trans (s.entry_closeLoad_same p _)
  · exact (State.entry_congr hptab q).trans (s.entry_closeLoad_other p _ q hq)

/-- Settles O8: the clauses of R15 are the three answers of PTAB; neither a LOADING nor a FREE entry gives a job its step, so no line
moves, and the FREE entry reserves nothing of the n positions that the LOADING one did. -/
theorem patDiscardDecides : Obligations.PatDiscardDecides := by
  intro s v id hs hx
  have hi : Instr.request (.patDiscard v id) = some (v, .patDiscard id) := rfl
  have hr : Request.Fits (.patDiscard id) := trivial
  obtain ⟨t, ht⟩ : ∃ t, exec (.patDiscard v id) s = .next t := ⟨_, exec_of_executes hi hr hx⟩
  refine ⟨t, ht, fun hid => refused_of_exec hs hi hr hx ht (ownerPatDiscard_badField hid), fun p hp =>
    ⟨fun hn => refused_of_exec hs hi hr hx ht (ownerPatDiscard_notFound hp (State.openLoad_of_elsewhere hn)), ?_⟩⟩
  intro l h steps hl hid he
  have hfree := s.entry_closeLoad_same p .free
  obtain ⟨ha, hptab⟩ := answered_of_exec_patterns hs hi hr hx ht
    (ownerPatDiscard_free hp (State.openLoad_of_loading hl hid he)) rfl
    fun _ a _ => State.currentStep_of_not_ready (s.entry_closeLoad_other p _) (by rw [he]; rfl) (by rw [hfree]; rfl) a
  refine ⟨ha, (State.entry_congr hptab p).trans hfree, fun q hq => ?_, by simp [hptab], ?_⟩
  · exact (State.entry_congr hptab q).trans (s.entry_closeLoad_other p _ q hq)
  · simpa [hptab, he, Entry.reserved] using s.reservedSteps_setEntry p .free

end Sys2Proof.Machine
end

section
/-! PROOFS. PLAY (R28): which of the four checks a PLAY meets, what the channel controllers answer to one that is refused or accepted,
and the statement. -/

namespace Sys2Proof.Machine

/-- The entry that R28 asks for is one that holds a sealed pattern, whatever its header, steps and jobs. -/
theorem Entry.isReady_iff {e : Entry} : e.isReady = true ↔ ∃ h steps n, e = .ready h steps n := by
  cases e <;> simp [Entry.isReady]

/-! ### The four checks, in their order -/

section Checks

variable {s : State} {c : Chan} {p : PatId}

theorem State.playRefusal_badState (hb : (s.chan c).state = .off ∨ (s.chan c).state = .fault) :
    s.playRefusal c p = some .badState :=
  if_pos hb

variable (hb : ¬((s.chan c).state = .off ∨ (s.chan c).state = .fault))

include hb

theorem State.playRefusal_safeState (hs : (s.chan c).state = .safe) : s.playRefusal c p = some .safeState :=
  (if_neg hb).trans (if_pos hs)

variable (hs : (s.chan c).state ≠ .safe)

include hs

theorem State.playRefusal_notFound (hr : (s.entry p).isReady = false) : s.playRefusal c p = some .notFound :=
  (if_neg hb).trans ((if_neg hs).trans (if_pos hr))

variable (hr : (s.entry p).isReady = true)

include hr

theorem State.playRefusal_of_ready :
    s.playRefusal c p = if 4 ≤ (s.chan c).queue.length then some .queueFull else none :=
  (if_neg hb).trans ((if_neg hs).trans (if_neg (by simp [hr])))

theorem State.playRefusal_queueFull (hq : 4 ≤ (s.chan c).queue.length) : s.playRefusal c p = some .queueFull :=
  (playRefusal_of_ready hb hs hr).trans (if_pos hq)

theorem State.playRefusal_none (hq : (s.chan c).queue.length < 4) : s.playRefusal c p = none :=
  (playRefusal_of_ready hb hs hr).trans (if_neg hq.not_ge)

end Checks

/-! ### What the channel controllers answer to PLAY -/

section Owner

variable {s : State} {p : PlayFields} {c : Chan} {j : Job}

theorem ownerPlay_refused (hp : p.Spells c j) {status : Status} (hr : s.playRefusal c j.pattern = some status) :
    ownerPlay p s = refuse s status := by
  simp only [ownerPlay, hp.playJob?, hr]

/-- The reply to an accepted PLAY gives the job's number, its queue position and whether it preempts (R29, R30). -/
theorem ownerPlay_accepted (hp : p.Spells c j) (hr : s.playRefusal c j.pattern = none) :
    let t := s.acceptPlay c { j with number := s.allocatedNumber }
    ownerPlay p s = answerOk t
      (halfBytes s.allocatedNumber ++ [byteOf ((t.chan c).position s.allocatedNumber), flagByte ((s.chan c).preemptedBy j)]) := by
  simp only [ownerPlay, hp.playJob?, hr]
  rfl

/-- Accepting a PLAY leaves LINK alone: the job joins the queue, and the rest is the channel's work. -/
@[simp] theorem State.acceptPlay_link (s : State) (c : Chan) (j : Job) : (s.acceptPlay c j).link = s.link :=
  (works_playEffect c _ _).link.trans (by simp [State.enqueue, State.addRef])

end Owner

/-- LINK after a command that the owning block answers OK, whatever else its execution has changed. -/
theorem link_of_exec {i : Instr} {v : Via} {r : Request} {s t u : State} (hi : i.request = some (v, r)) (hr : r.Fits)
    (h : s.Executes v r) (ht : exec i s = .next t) {fields : List Byte} (ho : owner r v.tag s = answerOk u fields)
    (hl : u.link = s.link) : t.link = s.link.answering v r (statusOk :: fields) none := by
  obtain rfl : _ = t := Host.Outcome.next.inj ((exec_of_executes hi hr h).symm.trans ht)
  rw [ho, State.settle_link]
  exact reply_link hl _ _

/-! ### The statement -/

/-- Settles O19: each clause of R28 is one check of `playRefusal` and the answer that it brings. -/
theorem playChecksInOrder : Obligations.PlayChecksInOrder := by
  intro s v p c j hs hx hp
  have hi : Instr.request (.play v p) = some (v, .play p) := rfl
  have hfits : Request.Fits (.play p) := trivial
  obtain ⟨t, ht⟩ : ∃ t, exec (.play v p) s = .next t := ⟨_, exec_of_executes hi hfits hx⟩
  have refused {status : Status} (h : s.playRefusal c j.pattern = some status) : s.Refused t v (.play p) status [] :=
    refused_of_exec hs hi hfits hx ht (ownerPlay_refused hp h)
  refine ⟨t, ht, fun hb => ?badState, fun hb hsafe => ?safeState, fun hb hsafe hready => ?notFound,
    fun hb hsafe hready hfull => ?queueFull, fun hb hsafe hready hroom => ?accepted⟩
  case badState => exact refused (State.playRefusal_badState hb)
  case safeState => exact refused (State.playRefusal_safeState hb hsafe)
  case notFound =>
    exact refused (State.playRefusal_notFound hb hsafe (Bool.eq_false_iff.2 (mt Entry.isReady_iff.1 hready)))
  case queueFull => exact refused (State.playRefusal_queueFull hb hsafe (Entry.isReady_iff.2 hready) hfull)
  case accepted =>
    have hpass := State.playRefusal_none hb hsafe (Entry.isReady_iff.2 hready) hroom
    exact ⟨_, _, link_of_exec hi hfits hx ht (ownerPlay_accepted hp hpass) (State.acceptPlay_link s c _)⟩

end Sys2Proof.Machine
end

section
/-! PROOFS. The output lines (R100, R101): the table of the drive, the logical level of a channel in each of its situations, and the
statement. -/

namespace Sys2Proof.Machine

/-! ### The drive (R101) -/

/-- An OPEN_DRAIN line is pulled low or let go: no level drives it high. -/
theorem LineConfig.drive_active (cfg : LineConfig) :
    cfg.drive .active = if cfg.activeLow then .low else if cfg.openDrain then .released else .high := rfl

theorem LineConfig.drive_inactive (cfg : LineConfig) :
    cfg.drive .inactive = if cfg.activeLow then if cfg.openDrain then .released else .high else .low := rfl

@[simp] theorem LineConfig.drive_released (cfg : LineConfig) : cfg.drive .released = .released := rfl

/-! ### The logical level (R100) -/

section Level

variable {s : State} {c : Chan}

theorem State.level_of_off (h : (s.chan c).state = .off) : s.level c = .released := by
  simp only [State.level, h]

/-- In the states in which a channel waits, its line rests. -/
theorem State.level_of_waiting
    (h : (s.chan c).state = .idle ∨ (s.chan c).state = .armed ∨ (s.chan c).state = .carrierWait ∨ (s.chan c).state = .held) :
    s.level c = (s.chan c).config.restLevel := by
  rcases h with h | h | h | h <;> simp only [State.level, h]

theorem State.level_of_safe (h : (s.chan c).state = .safe ∨ (s.chan c).state = .fault) :
    s.level c = (s.chan c).config.safeLevel.level := by
  rcases h with h | h <;> simp only [State.level, h]

theorem State.level_of_playing {a : Active} (h : (s.chan c).state = .playing) (ha : (s.chan c).active = some a) :
    s.level c = s.playingLevel (s.chan c).config a := by
  simp only [State.level, h, ha]

end Level

/-- The step that a job stands at is the one that its READY pattern holds at the job's index (R50). -/
theorem State.currentStep_of_ready {s : State} {a : Active} {h : Header} {steps : List Step} {n : Nat}
    (he : s.entry a.job.pattern = .ready h steps n) : s.currentStep a = steps[a.stepIndex]? := by
  simp only [State.currentStep, he]

section Playing

variable {s : State} {cfg : LineConfig} {a : Active} {y : Step} {g : GenId}

/-- Away from a generator the line follows the kind of the job's step. -/
theorem State.playingLevel_active (ha : a.attach = none) (hy : s.currentStep a = some y) (hk : y.kind = .active) :
    s.playingLevel cfg a = .active := by
  simp only [State.playingLevel, ha, hy, Option.map_some, hk]

theorem State.playingLevel_inactive (ha : a.attach = none) (hy : s.currentStep a = some y) (hk : y.kind = .inactive) :
    s.playingLevel cfg a = .inactive := by
  simp only [State.playingLevel, ha, hy, Option.map_some, hk]

theorem State.playingLevel_rest (ha : a.attach = none) (hy : s.currentStep a = some y) (hk : y.kind = .rest) :
    s.playingLevel cfg a = cfg.restLevel := by
  simp only [State.playingLevel, ha, hy, Option.map_some, hk]

/-- A gate that has not opened yet keeps the carrier from the line. -/
theorem State.playingLevel_opening (ha : a.attach = some ⟨g, .opening⟩) : s.playingLevel cfg a = .inactive := by
  simp only [State.playingLevel, ha]

/-- Through an open gate the line follows the generator's cycle (R76). -/
theorem State.playingLevel_opened (ha : a.attach = some ⟨g, .opened⟩) :
    s.playingLevel cfg a = if (s.gen g).inHigh then .active else .inactive := by
  simp only [State.playingLevel, ha]

end Playing

/-! ### The statement -/

/-- A settled state drives each line as the channel's logical level says, whatever gives that level. -/
theorem State.Settled.outs_of_level {s : State} {c : Chan} {x : Level} (hs : s.Settled) (h : s.level c = x) :
    s.outs[c] = (s.chan c).config.drive x :=
  h ▸ hs.outs c

/-- Settles O35: the drive by its table, the lines by the logical level of each situation. -/
theorem linesFollowTheChannels : Obligations.LinesFollowTheChannels := by
  refine ⟨fun cfg => ⟨?driveActive, ?driveInactive, cfg.drive_released⟩, fun s c hs =>
    ⟨fun h => hs.outs_of_level (State.level_of_off h), fun h => hs.outs_of_level (State.level_of_waiting h), fun h => ?safe,
      ?playing⟩⟩
  case driveActive => rw [cfg.drive_active]; cases cfg.activeLow <;> cases cfg.openDrain <;> rfl
  case driveInactive => rw [cfg.drive_inactive]; cases cfg.activeLow <;> cases cfg.openDrain <;> rfl
  case safe =>
    refine (hs.outs_of_level (State.level_of_safe h)).trans (congrArg _ ?_)
    cases (s.chan c).config.safeLevel <;> rfl
  case playing =>
    intro a h steps n y hplay hact hready hstep
    have hy : s.currentStep a = some y := (State.currentStep_of_ready hready).trans hstep
    have drives {x : Level} (hx : s.playingLevel (s.chan c).config a = x) : s.outs[c] = (s.chan c).config.drive x :=
      hs.outs_of_level ((State.level_of_playing hplay hact).trans hx)
    exact ⟨fun ha hk => drives (State.playingLevel_active ha hy hk), fun ha hk => drives (State.playingLevel_inactive ha hy hk),
      fun ha hk => drives (State.playingLevel_rest ha hy hk), fun g ha => drives (State.playingLevel_opening ha),
      fun g ha => drives (State.playingLevel_opened ha)⟩

end Sys2Proof.Machine
end

section
/-! PROOFS. SN_CONFIG (R117): which bytes name a report selection, what the sense unit answers, what an event can change that writes the
sense unit alone, and the statement. -/

namespace Sys2Proof.Machine

/-! ### The report selections (R111) -/

/-- A byte above 3 names no report selection. -/
theorem selection?_of_le {b : Byte} (h : 4 ≤ b.toNat) : selection? b = none := by
  obtain ⟨n, hn⟩ := Nat.exists_eq_add_of_le' h
  simp only [selection?, hn]

@[simp] theorem selection?_code (x : Selection) : selection? x.code = some x := by
  cases x <;> rfl

/-- Every byte up to 3 is the code of a report selection. -/
theorem Selection.exists_code_eq {b : Byte} (h : b.toNat < 4) : ∃ x : Selection, x.code = b := by
  have hb : b = Selection.none.code ∨ b = Selection.rise.code ∨ b = Selection.fall.code ∨ b = Selection.both.code := by
    simp only [Selection.code]
    bv_omega
  rcases hb with rfl | rfl | rfl | rfl <;> exact ⟨_, rfl⟩

/-! ### A line's record written -/

/-- The state with one line's record replaced. -/
def State.setSenseLine (s : State) (l : Line) (x : SenseLine) : State :=
  { s with sense := { s.sense with lines := s.sense.lines.set l x } }

@[simp] theorem State.senseLine_setSenseLine (s : State) (l k : Line) (x : SenseLine) :
    (s.setSenseLine l x).senseLine k = if k = l then x else s.senseLine k := by
  simp only [State.senseLine, State.setSenseLine, Fin.getElem_fin, Vector.getElem_set, Fin.ext_iff, eq_comm]

@[simp] theorem State.setSenseLine_grid (s : State) (l : Line) (x : SenseLine) :
    (s.setSenseLine l x).sense.grid = s.sense.grid := rfl

/-- A line's record is read from the sense unit alone. -/
theorem State.senseLine_congr {s t : State} (h : t.sense = s.sense) (l : Line) : t.senseLine l = s.senseLine l := by
  simp only [State.senseLine, h]

/-! ### What the sense unit answers to SN_CONFIG -/

section Owner

variable {s : State} {line selection filter : Byte}

theorem ownerSnConfig_badField (h : 8 ≤ line.toNat ∨ 4 ≤ selection.toNat) :
    ownerSnConfig line selection filter s = refuse s .badField := by
  rcases h with hline | hsel
  · simp only [ownerSnConfig, index?_of_le hline]
  · simp only [ownerSnConfig, selection?_of_le hsel]
    cases index? 8 line <;> rfl

/-- The reply gives the settings that the command replaced (R117). -/
theorem ownerSnConfig_ok {l : Line} (hl : l.val = line.toNat) (x : Selection) :
    ownerSnConfig line x.code filter s = answerOk (s.setSenseLine l ((s.senseLine l).configured x filter))
      [(s.senseLine l).selection.code, (s.senseLine l).filter, flagByte (s.senseLine l).filtered] := by
  simp only [ownerSnConfig, index?_of_toNat hl.symm, selection?_code, State.setSenseLine]

end Owner

/-! ### An event that writes the sense unit alone -/

section Event

variable {i : Instr} {v : Via} {r : Request} {s t u : State}

/-- In a settled state an event that writes the sense unit alone changes nothing besides: no line follows it (R100), and without an
edge there is nothing to report (R116). -/
theorem State.Settled.keepsAllBut_sense (hs : s.Settled) (hu : u = { s with sense := u.sense }) :
    s.KeepsAllBut u.settle [.link, .sense] := by
  have hout : u.outbox = [] := by rw [hu]; exact hs.outbox
  refine ⟨fun b hb => ?_, by rw [State.settle_clock, hu], by rw [State.settle_pending, hu]⟩
  cases b with
  | sense | link => simp at hb
  | patterns => exact u.settle_ptab.trans (by rw [hu])
  | channels => exact u.settle_chans.trans (by rw [hu])
  | jobCounter => exact u.settle_nextJob.trans (by rw [hu])
  | carriers => exact u.settle_carb.trans (by rw [hu])
  | outputs => exact hs.settle_outs (by rw [hu]) (by rw [hu]) (by rw [hu])
  | reports => exact hs.settle_rpt hout (by rw [hu])
  | lease => exact u.settle_lease.trans (by rw [hu])
  | choices => exact (State.settle_choices_of_outbox_nil hout).trans (by rw [hu])

/-- The one next state of a command that the owning block answers OK, having written the sense unit alone. -/
theorem answered_of_exec_sense (hs : s.Settled) (hi : i.request = some (v, r)) (hr : r.Fits) (h : s.Executes v r)
    (ht : exec i s = .next t) {fields : List Byte} (ho : owner r v.tag s = answerOk u fields)
    (hu : u = { s with sense := u.sense }) : s.Answered t v r fields [.sense] ∧ t.sense = u.sense := by
  obtain ⟨t', ht', ha, hsense⟩ := exec_answered hi hr h ho (by rw [hu]) (hs.keepsAllBut_sense hu)
  cases ht.symm.trans ht'
  exact ⟨ha, by rw [hsense]; exact u.settle_sense⟩

end Event

/-! ### The statement -/

/-- Settles O40: the clauses of R117 are the two answers of the sense unit, and the record that it writes. -/
theorem snConfigDecides : Obligations.SnConfigDecides := by
  intro s v line selection filter hs hx
  have hi : Instr.request (.snConfig v line selection filter) = some (v, .snConfig line selection filter) := rfl
  have hr : Request.Fits (.snConfig line selection filter) := trivial
  obtain ⟨t, ht⟩ : ∃ t, exec (.snConfig v line selection filter) s = .next t := ⟨_, exec_of_executes hi hr hx⟩
  refine ⟨t, ht, fun hbad => refused_of_exec hs hi hr hx ht (ownerSnConfig_badField hbad), fun l hl hsel => ?_⟩
  obtain ⟨x, rfl⟩ := Selection.exists_code_eq hsel
  obtain ⟨ha, hsense⟩ := answered_of_exec_sense hs hi hr hx ht (ownerSnConfig_ok hl x) rfl
  have hsame : t.senseLine l = (s.senseLine l).configured x filter := by simp [State.senseLine_congr hsense]
  have hother (k : Line) (hk : k ≠ l) : t.senseLine k = s.senseLine k := by simp [State.senseLine_congr hsense, hk]
  rw [hsame]
  exact ⟨rfl, rfl, rfl, rfl, rfl, hother, by rw [hsense]; rfl, ha⟩

end Sys2Proof.Machine
end

section
/-! PROOFS. ACK (R132): that the removal of the outstanding batch changes neither the undelivered records nor
ATTN_N; what the report unit answers; what an event can change that writes the report unit alone; and the statement. -/

namespace Sys2Proof.Machine

/-! ### The removal of the batch: the undelivered records are those behind it (R129) -/

section RemoveBatch

variable {u : ReportUnit} {b : Batch}

theorem ReportUnit.batchSize_of_batch (h : u.batch = some b) : u.batchSize = b.size := by
  simp only [batchSize, h]

variable (u)

@[simp] theorem ReportUnit.removeBatch_batchSize : u.removeBatch.batchSize = 0 := rfl

@[simp] theorem ReportUnit.removeBatch_undelivered : u.removeBatch.undelivered = u.undelivered :=
  List.length_drop

@[simp] theorem ReportUnit.removeBatch_oldest : u.removeBatch.oldest = u.oldest :=
  List.getElem?_drop

@[simp] theorem ReportUnit.removeBatch_ageCondition : u.removeBatch.ageCondition = u.ageCondition := by
  simp only [ageCondition, removeBatch_oldest]
  rfl

/-- ATTN_N counts and ages the undelivered records alone (R134, R135). -/
@[simp] theorem ReportUnit.removeBatch_pulls : u.removeBatch.pulls = u.pulls := by
  simp only [pulls, removeBatch_undelivered, removeBatch_ageCondition]
  rfl

end RemoveBatch

/-! ### What the report unit answers to ACK -/

section Owner

variable {s : State} {tag : Byte} {b : Batch}

theorem ownerAck_notFound (h : ∀ b, s.rpt.batch = some b → b.tag ≠ tag) : ownerAck tag s = refuse s .notFound := by
  unfold ownerAck
  split
  next b hb => exact if_neg (h b hb)
  next => rfl

theorem ownerAck_removes (hb : s.rpt.batch = some b) (htag : b.tag = tag) :
    ownerAck tag s = answerOk { s with rpt := s.rpt.removeBatch } [byteOf b.size, byteOf s.rpt.undelivered] := by
  simp only [ownerAck, hb, if_pos htag, ReportUnit.removeBatch_undelivered]

end Owner

/-! ### An event that writes the report unit alone -/

section Event

variable {i : Instr} {v : Via} {r : Request} {s t u : State}

/-- In a settled state an event that writes the report unit alone changes nothing besides: no line follows it (R100). -/
theorem State.Settled.keepsAllBut_reports (hs : s.Settled) (hu : u = { s with rpt := u.rpt }) :
    s.KeepsAllBut u.settle [.link, .reports] := by
  have hout : u.outbox = [] := by rw [hu]; exact hs.outbox
  refine ⟨fun b hb => ?_, by rw [State.settle_clock, hu], by rw [State.settle_pending, hu]⟩
  cases b with
  | reports | link => simp at hb
  | patterns => exact u.settle_ptab.trans (by rw [hu])
  | channels => exact u.settle_chans.trans (by rw [hu])
  | jobCounter => exact u.settle_nextJob.trans (by rw [hu])
  | carriers => exact u.settle_carb.trans (by rw [hu])
  | outputs => exact hs.settle_outs (by rw [hu]) (by rw [hu]) (by rw [hu])
  | sense => exact u.settle_sense.trans (by rw [hu])
  | lease => exact u.settle_lease.trans (by rw [hu])
  | choices => exact (State.settle_choices_of_outbox_nil hout).trans (by rw [hu])

/-- The one next state of a command that the owning block answers OK, having written the report unit alone: ATTN_N is decided by what
was written (R134). -/
theorem answered_of_exec_reports (hs : s.Settled) (hi : i.request = some (v, r)) (hr : r.Fits) (h : s.Executes v r)
    (ht : exec i s = .next t) {fields : List Byte} (ho : owner r v.tag s = answerOk u fields)
    (hu : u = { s with rpt := u.rpt }) :
    s.Answered t v r fields [.reports] ∧ t.rpt = { u.rpt with attention := u.rpt.pulls } := by
  obtain ⟨t', ht', ha, hrpt⟩ := exec_answered hi hr h ho (by rw [hu]) (hs.keepsAllBut_reports hu)
  cases ht.symm.trans ht'
  have hout : u.outbox = [] := by rw [hu]; exact hs.outbox
  exact ⟨ha, by rw [hrpt]; exact u.settle_rpt_of_outbox_nil hout⟩

end Event

/-- In a settled state ATTN_N stands as it did once the batch has been removed. -/
theorem State.Settled.removeBatch_attention {s : State} (hs : s.Settled) :
    { s.rpt.removeBatch with attention := s.rpt.removeBatch.pulls } = s.rpt.removeBatch := by
  rw [s.rpt.removeBatch_pulls, ← hs.attention]
  rfl

/-! ### The statement -/

/-- Settles O43: the clauses of R132 are the two answers of the report unit; the undelivered records, and so their count and ATTN_N,
are those behind the batch that is removed. -/
theorem ackDecides : Obligations.AckDecides := by
  intro s v tag hs _ hx
  have hi : Instr.request (.ack v tag) = some (v, .ack tag) := rfl
  have hr : Request.Fits (.ack tag) := trivial
  obtain ⟨t, ht⟩ : ∃ t, exec (.ack v tag) s = .next t := ⟨_, exec_of_executes hi hr hx⟩
  refine ⟨t, ht, fun hnone => refused_of_exec hs hi hr hx ht (ownerAck_notFound hnone), fun b hb htag => ?_⟩
  obtain ⟨ha, hrpt⟩ := answered_of_exec_reports hs hi hr hx ht (ownerAck_removes hb htag) rfl
  have hremoved : t.rpt = s.rpt.removeBatch := hrpt.trans hs.removeBatch_attention
  refine ⟨?_, by rw [hremoved, s.rpt.removeBatch_undelivered], ha⟩
  rw [hremoved, ReportUnit.removeBatch, ReportUnit.batchSize_of_batch hb]

end Sys2Proof.Machine
end

section
/-! PROOFS. What the owning block's execution of a command can leave, said once for all the commands of the catalogue (`Executed`): the
invariants that every step keeps go through it. -/

namespace Sys2Proof.Machine

/-- What the owning block's execution of a command can leave of a state: the state as it was, or what one command writes under the checks
that it has passed. -/
inductive Executed (s : State) : State → Prop where
  | unchanged : Executed s s
  | counters : Executed s s.clearCounters
  | lease (period : Nat) (h : s.lease.state ≠ .expired) : Executed s { s with lease := .withPeriod period }
  | recovered (h : s.lease.state = .expired) :
    Executed s { s.mapChans (fun _ ch => if ch.state = .safe then { ch with state := .idle } else ch) with
      lease := s.lease.restarted }
  | attention (enable : Bool) (threshold : Nat) (holdTime : Byte) :
    Executed s { s with rpt := s.rpt.configure enable threshold holdTime }
  | fetched (k : Nat) (tag : Byte) (h1 : 1 ≤ k) (h4 : k ≤ 4) : Executed s { s with rpt := s.rpt.fetch k tag }
  | acknowledged : Executed s { s with rpt := s.rpt.removeBatch }
  | opened (id : PatId) (h : Header) (hn : 1 ≤ h.count ∧ h.count ≤ 64 ∧ h.loopStart < h.count)
    (ho : s.otherLoad id = false) (hu : (s.entry id).inUse = false)
    (hr : h.count ≤ s.ptab.freeSteps + (s.entry id).reserved) :
    Executed s ((s.setEntry id (.loading h [])).startLoad id)
  | appended (id : PatId) (h : Header) (steps new : List Step) (ho : s.openLoad id = some (h, steps))
    (hn : steps.length + new.length ≤ h.count) : Executed s ((s.setEntry id (.loading h (steps ++ new))).startLoad id)
  | resent (id : PatId) (h : Header) (steps : List Step) (ho : s.openLoad id = some (h, steps)) : Executed s (s.startLoad id)
  | sealed (id : PatId) (h : Header) (steps : List Step) (ho : s.openLoad id = some (h, steps))
    (hn : h.count ≤ steps.length) : Executed s (s.setEntry id (.ready h steps 0)).emptySlot
  | discarded (id : PatId) (h : Header) (steps : List Step) (ho : s.openLoad id = some (h, steps)) :
    Executed s (s.setEntry id .free).emptySlot
  | deleted (id : PatId) (h : Header) (steps : List Step) (he : s.entry id = .ready h steps 0) :
    Executed s (s.setEntry id .free)
  | classSet (k : Cls) (x : CarrierClass) (hx : 16 ≤ x.period ∧ x.period ≤ 65535 ∧ 1 ≤ x.high ∧ x.high < x.period)
    (hk : s.holder k = none) : Executed s (s.setClass k (some x))
  | classCleared (k : Cls) (hk : s.holder k = none) :
    Executed s ((s.waitersFor k).foldl (fun t c => t.finishJob c .noCarrierClass) (s.setClass k none))
  | configured (c : Chan) (cfg : LineConfig) (h : (s.chan c).state = .off) :
    Executed s (s.modChan c fun ch => { ch with config := cfg })
  | enlisted (mask : Byte) (x : ChState) (hx : x = .off ∨ x = .fault) : Executed s (s.enlist mask x)
  | disabled (mask : Byte) (h : ((maskChans mask).any fun c => (s.chan c).hasJob) = false) :
    Executed s (s.mapChans fun c ch =>
      if mask.getLsbD c.val && decide (ch.state ≠ .off) then Channel.empty .off ch.config else ch)
  | evicted (cs : List Chan) (h : cs.Nodup) : Executed s (s.evictAll cs .disabled .disabled .off)
  | accepted (c : Chan) (j : Job) (hr : s.playRefusal c j.pattern = none) :
    Executed s (s.acceptPlay c { j with number := s.allocatedNumber })
  | cancelled (c : Chan) (j : Job) (h : (s.chan c).queue.find? (fun x => x.number == j.number) = some j) :
    Executed s (s.dropAndDecide c j .cancelled)
  | stopped (cs : List Chan) (h : cs.Nodup) (w : StopWhen) (f : Bool) :
    Executed s ((s.withdrawWaiters cs).forEach cs (State.stopChannel s.chan w f))
  | held (cs : List Chan) : Executed s (s.forEach cs State.holdChannel)
  | resumed (cs : List Chan) : Executed s (s.forEach cs State.resumeChannel)
  | started (cs : List Chan) (hn : cs.Nodup) (h : ∀ c ∈ cs, (s.chan c).goReady = true) :
    Executed s (s.forEach cs fun c t => t.startHead c)
  | lineConfigured (l : Line) (x : SenseLine) : Executed s (s.setSenseLine l x)

theorem Executed.of_eq {s t : State} (h : t = s) : Executed s t :=
  h ▸ .unchanged

theorem maskChans_nodup (mask : Byte) : (maskChans mask).Nodup :=
  (List.nodup_finRange 8).filter _

theorem openHeader?_bounds {p : OpenFields} {id : PatId} {h : Header} (e : openHeader? p = some (id, h)) :
    1 ≤ h.count ∧ h.count ≤ 64 ∧ h.loopStart < h.count := by
  unfold openHeader? at e
  split at e
  · split at e
    · cases e
      assumption
    · cases e
  · cases e

theorem carSetFields?_bounds {cls : Byte} {period high : Half} {k : Cls} {x : CarrierClass}
    (e : carSetFields? cls period high = some (k, x)) :
    16 ≤ x.period ∧ x.period ≤ 65535 ∧ 1 ≤ x.high ∧ x.high < x.period := by
  unfold carSetFields? at e
  split at e
  · cases e
  · split at e
    · cases e
      have := period.isLt
      dsimp only
      omega
    · cases e

section

variable (s : State)

theorem ownerPatOpen_executed (p : OpenFields) : Executed s (ownerPatOpen p s).state := by
  unfold ownerPatOpen
  split
  · exact .unchanged
  · next id h e =>
    split
    · exact .unchanged
    · next ho =>
      split
      · exact .unchanged
      · next hu =>
        split
        · exact .unchanged
        · next hr =>
          exact .opened id h (openHeader?_bounds e) (by simpa using ho) (by simpa using hu) (by omega)

theorem ownerPatSteps_executed (id first : Byte) (records : List RawStep) :
    Executed s (ownerPatSteps id first records s).state := by
  unfold ownerPatSteps
  split
  · next p new _ _ =>
    split
    · exact .unchanged
    · split
      · exact .unchanged
      · next h steps ho =>
        split
        · exact .unchanged
        · unfold appendSteps
          split
          · exact .appended p h steps new ho (by omega)
          · split
            · exact .resent p h steps ho
            · exact .unchanged
  · exact .unchanged

theorem ownerPatSeal_executed (id : Byte) : Executed s (ownerPatSeal id s).state := by
  unfold ownerPatSeal
  split
  · exact .unchanged
  · split
    · exact .unchanged
    · next h steps ho =>
      split
      · exact .unchanged
      · exact .sealed _ h steps ho (by omega)

theorem ownerPatDiscard_executed (id : Byte) : Executed s (ownerPatDiscard id s).state := by
  unfold ownerPatDiscard
  split
  · exact .unchanged
  · split
    · exact .unchanged
    · next x ho => exact .discarded _ x.1 x.2 ho

theorem ownerPatDelete_executed (id : Byte) : Executed s (ownerPatDelete id s).state := by
  unfold ownerPatDelete
  split
  · exact .unchanged
  · split
    · next refs e =>
      split
      · exact .unchanged
      · next h => exact .deleted _ _ _ (by rw [e, Nat.eq_zero_of_not_pos h])
    · exact .unchanged

theorem ownerPatInfo_state (id : Byte) : (ownerPatInfo id s).state = s := by
  unfold ownerPatInfo
  repeat' split
  all_goals rfl

theorem ownerPatRead_state (id first count : Byte) : (ownerPatRead id first count s).state = s := by
  unfold ownerPatRead
  repeat' split
  all_goals rfl

theorem ownerCarStatus_state (part : Byte) : (ownerCarStatus part s).state = s := by
  unfold ownerCarStatus
  split <;> rfl

theorem ownerReset_state (scope : Byte) : (ownerReset scope s).state = s := by
  unfold ownerReset
  split <;> rfl

theorem ownerChStatus_state (channel : Byte) : (ownerChStatus channel s).state = s := by
  unfold ownerChStatus
  split <;> rfl

theorem ownerStatus_executed (clear : Byte) : Executed s (ownerStatus clear s).state := by
  unfold ownerStatus
  split
  · exact .unchanged
  · next f _ =>
    cases f
    · exact .unchanged
    · exact .counters

theorem ownerLease_executed (period : Half) : Executed s (ownerLease period s).state := by
  unfold ownerLease
  split
  · split
    · exact .unchanged
    · exact .lease _ ‹_›
  · exact .unchanged

theorem ownerRecover_executed : Executed s (ownerRecover s).state := by
  unfold ownerRecover
  split
  · exact .recovered ‹_›
  · exact .unchanged

theorem ownerAttnConfig_executed (enable threshold holdTime : Byte) :
    Executed s (ownerAttnConfig enable threshold holdTime s).state := by
  unfold ownerAttnConfig
  split
  · exact .unchanged
  · split
    · exact .attention _ _ _
    · exact .unchanged

theorem ownerFetch_executed (k tag : Byte) : Executed s (ownerFetch k tag s).state := by
  unfold ownerFetch
  split
  · next h => exact .fetched _ _ h.1 h.2
  · exact .unchanged

theorem ownerAck_executed (batchTag : Byte) : Executed s (ownerAck batchTag s).state := by
  unfold ownerAck
  split
  · split
    · exact .acknowledged
    · exact .unchanged
  · exact .unchanged

theorem ownerCarSet_executed (cls : Byte) (period high : Half) : Executed s (ownerCarSet cls period high s).state := by
  unfold ownerCarSet
  split
  · exact .unchanged
  · next k x e =>
    split
    · exact .unchanged
    · next h => exact .classSet k x (carSetFields?_bounds e) (by simpa using h)

theorem ownerCarClear_executed (cls : Byte) : Executed s (ownerCarClear cls s).state := by
  unfold ownerCarClear
  split
  · exact .unchanged
  · split
    · exact .unchanged
    · next h =>
      split
      · exact .unchanged
      · exact .classCleared _ (by simpa using h)

theorem ownerChConfig_executed (p : ConfigFields) : Executed s (ownerChConfig p s).state := by
  unfold ownerChConfig
  split
  · exact .unchanged
  · split
    · exact .configured _ _ ‹_›
    · exact .unchanged

theorem ownerChDisable_executed (mask force : Byte) : Executed s (ownerChDisable mask force s).state := by
  unfold ownerChDisable
  split
  · exact .unchanged
  · split
    · exact .unchanged
    · unfold disableIdle
      split
      · exact .unchanged
      · next h => exact .disabled mask (by simpa using h)
    · exact .evicted _ ((maskChans_nodup mask).filter _)

theorem ownerPlay_executed (p : PlayFields) : Executed s (ownerPlay p s).state := by
  unfold ownerPlay
  split
  · exact .unchanged
  · split
    · exact .unchanged
    · exact .accepted _ _ ‹_›

theorem ownerCancel_executed (channel : Byte) (job : Half) : Executed s (ownerCancel channel job s).state := by
  unfold ownerCancel
  split
  · exact .unchanged
  · split
    · exact .unchanged
    · split
      · next j h =>
        have hj : j.number = job := by simpa using List.find?_some h
        exact .cancelled _ j (hj ▸ h)
      · split <;> exact .unchanged

theorem ownerStop_executed (mask boundary flush : Byte) : Executed s (ownerStop mask boundary flush s).state := by
  unfold ownerStop
  split
  · split
    · exact .unchanged
    · exact .stopped _ (maskChans_nodup mask) _ _
  · exact .unchanged

theorem ownerSnConfig_executed (line selection filter : Byte) :
    Executed s (ownerSnConfig line selection filter s).state := by
  unfold ownerSnConfig
  split
  · exact .lineConfigured _ _
  · exact .unchanged

theorem ownerGo_executed (mask : Byte) : Executed s (ownerGo mask s).state := by
  unfold ownerGo
  split
  · exact .unchanged
  · exact .started _ ((maskChans_nodup mask).filter _) fun c h => (List.mem_filter.1 h).2

theorem ownerChEnable_executed (mask : Byte) : Executed s (ownerChEnable mask s).state := by
  unfold ownerChEnable
  split
  exacts [.unchanged, .enlisted mask _ (.inl rfl)]

theorem ownerClearFault_executed (mask : Byte) : Executed s (ownerClearFault mask s).state := by
  unfold ownerClearFault
  split
  exacts [.unchanged, .enlisted mask _ (.inr rfl)]

theorem ownerHold_executed (mask : Byte) : Executed s (ownerHold mask s).state := by
  unfold ownerHold
  split
  exacts [.unchanged, .held _]

theorem ownerResume_executed (mask : Byte) : Executed s (ownerResume mask s).state := by
  unfold ownerResume
  split
  exacts [.unchanged, .resumed _]

/-- Every command's execution leaves a state of `Executed`. -/
theorem owner_executed (r : Request) (tag : Byte) : Executed s (owner r tag s).state := by
  cases r with
  | ident | time | lines => exact .unchanged
  | status clear => exact ownerStatus_executed s clear
  | reset scope => exact .of_eq (ownerReset_state s scope)
  | lease period => exact ownerLease_executed s period
  | recover => exact ownerRecover_executed s
  | attnConfig enable threshold holdTime => exact ownerAttnConfig_executed s enable threshold holdTime
  | fetch k => exact ownerFetch_executed s k tag
  | ack batchTag => exact ownerAck_executed s batchTag
  | patOpen p => exact ownerPatOpen_executed s p
  | patSteps id first records => exact ownerPatSteps_executed s id first records
  | patSeal id => exact ownerPatSeal_executed s id
  | patDiscard id => exact ownerPatDiscard_executed s id
  | patDelete id => exact ownerPatDelete_executed s id
  | patInfo id => exact .of_eq (ownerPatInfo_state s id)
  | patRead id first count => exact .of_eq (ownerPatRead_state s id first count)
  | carSet cls period high => exact ownerCarSet_executed s cls period high
  | carClear cls => exact ownerCarClear_executed s cls
  | carStatus part => exact .of_eq (ownerCarStatus_state s part)
  | chConfig p => exact ownerChConfig_executed s p
  | chEnable mask => exact ownerChEnable_executed s mask
  | chDisable mask force => exact ownerChDisable_executed s mask force
  | play p => exact ownerPlay_executed s p
  | cancel channel job => exact ownerCancel_executed s channel job
  | stop mask boundary flush => exact ownerStop_executed s mask boundary flush
  | hold mask => exact ownerHold_executed s mask
  | resume mask => exact ownerResume_executed s mask
  | go mask => exact ownerGo_executed s mask
  | clearFault mask => exact ownerClearFault_executed s mask
  | chStatus channel => exact .of_eq (ownerChStatus_state s channel)
  | snConfig line selection filter => exact ownerSnConfig_executed s line selection filter

end

/-! ### How an event and a step end -/

/-- What a command or an event leaves: the state as it was, the end of an event, or the part after a hardware reset. -/
inductive Leaves (s : State) : State → Prop where
  | same : Leaves s s
  | settled (u : State) : Leaves s u.settle
  | reset (address : BitVec 4) (rate : BitVec 2) (sense : BitVec 8) : Leaves s (s.hardReset address rate sense)

theorem leaves_event (due : Bool) (s u : State) : Leaves s (if due then u.settle else s) := by
  split
  exacts [.settled _, .same]

/-- Every command and every event ends in one of the three ways. -/
theorem exec_leaves {i : Instr} {s t : State} (e : exec i s = .next t) : Leaves s t := by
  rcases hq : i.request with _ | ⟨v, r⟩
  case some =>
    cases (exec_of_request hq s).symm.trans e
    exact .settled _
  cases i <;> first | cases hq; done | skip
  case hardwareReset a r x => cases e; exact .reset a r x
  all_goals
    cases e
    exact leaves_event _ s _

/-- One reference clock: every timer counts, the events that fall due wait, and an order may be drawn. -/
theorem State.tick_eq (s : State) : ∃ n q, s.tick = { s.advance with choices := n, pending := q } := by
  obtain ⟨n, e⟩ : ∃ n, (s.advance.ordered s.advance.dueEvents).2 = { s.advance with choices := n } := by
    rcases s.advance.ordered_snd s.advance.dueEvents with e | e
    exacts [⟨s.advance.choices, e⟩, ⟨_, e⟩]
  exact ⟨n, _, by unfold State.tick; dsimp only; rw [e]⟩

/-- An event leaves no report untaken where none was. -/
theorem Leaves.outbox {s t : State} (h : Leaves s t) (ho : s.outbox = []) : t.outbox = [] := by
  cases h with
  | same => exact ho
  | settled u => rfl
  | reset a r x => rfl

/-- A step is one reference clock, or a command or an event on the state with the rest of the queue. -/
theorem step_cases {s t : State} (e : step s = .next t) :
    t = s.tick ∨ ∃ i rest, s.pending = i :: rest ∧ exec i { s with pending := rest } = .next t := by
  unfold step at e
  split at e
  next => cases e; exact .inl rfl
  next i rest h => exact .inr ⟨i, rest, h, e⟩

/-- A step leaves no report untaken where none was. -/
theorem step_outbox {s t : State} (e : step s = .next t) (ho : s.outbox = []) : t.outbox = [] := by
  rcases step_cases e with rfl | ⟨i, rest, -, e⟩
  · obtain ⟨n, q, e⟩ := s.tick_eq
    rw [e]
    exact ho
  · exact (exec_leaves e).outbox ho

end Sys2Proof.Machine
end

section
/-! PROOFS. The report queue (R125 to R129): what RPT does with one report, that the bounds of the queue and of the batch survive it and
every other part of a step, and the two statements. -/

namespace Sys2Proof.Machine

/-! ### Markers side by side (R127) -/

/-- A record joins a queue without adjacent markers exactly where it and the newest record are not both markers. -/
theorem markersApart_append_singleton (q : List Record) (x : Record) :
    markersApart (q ++ [x]) = (markersApart q && q.getLast?.all fun y => !(y.isMarker && x.isMarker)) := by
  induction q with
  | nil => rfl
  | cons a q ih =>
    cases q with
    | nil => simp [markersApart]
    | cons b q =>
      simp only [List.cons_append, markersApart] at ih ⊢
      rw [ih, List.getLast?_cons_cons, Bool.and_assoc]

/-- The newest records of a queue may be left away. -/
theorem markersApart_drop (q : List Record) (n : Nat) (h : markersApart q = true) : markersApart (q.drop n) = true := by
  induction n generalizing q with
  | zero => exact h
  | succ n ih =>
    match q with
    | [] => rfl
    | [a] => simp [markersApart]
    | a :: b :: q => exact ih (b :: q) (by simp only [markersApart, Bool.and_eq_true] at h; exact h.2)

@[simp] theorem Record.countLoss_isMarker (m : Record) : m.countLoss.isMarker = m.isMarker := rfl

@[simp] theorem newMarker_isMarker (r : Report) (n : Byte) : (newMarker r n).isMarker = true := rfl

/-! ### The queue after one report (R126) -/

section Take

variable {q : List Record} {r : Report} {n : Byte}

theorem queueReport_of_room (h : q.length ≤ 30) : queueReport q r n = q ++ [⟨r, n⟩] :=
  if_pos h

theorem queueReport_of_marker {before : List Record} {m : Record} (hq : q = before ++ [m]) (h : 31 ≤ q.length)
    (hm : m.isMarker = true) : queueReport q r n = before ++ [m.countLoss] := by
  unfold queueReport
  rw [if_neg (by omega)]
  simp [hq, hm]

theorem queueReport_of_ordinary {before : List Record} {m : Record} (hq : q = before ++ [m]) (h : 31 ≤ q.length)
    (hm : m.isMarker = false) : queueReport q r n = q ++ [newMarker r n] := by
  unfold queueReport
  rw [if_neg (by omega)]
  simp [hq, hm]

variable {u : ReportUnit}

@[simp] theorem ReportUnit.take_queue : (u.take r).queue = queueReport u.queue r u.nextSequence := by
  unfold ReportUnit.take
  dsimp only
  split <;> rfl

@[simp] theorem ReportUnit.take_batch : (u.take r).batch = u.batch := by
  unfold ReportUnit.take
  dsimp only
  split <;> rfl

@[simp] theorem ReportUnit.take_nextSequence : (u.take r).nextSequence = u.nextSequence + 1#8 := by
  unfold ReportUnit.take
  dsimp only
  split <;> rfl

end Take

/-! ### The bounds survive -/

section Bounds

variable {u v : ReportUnit}

/-- The bounds are those of the queue and the batch. -/
theorem ReportUnit.Ok.congr (h : u.Ok) (hq : v.queue = u.queue) (hb : v.batch = u.batch) : v.Ok := by
  obtain ⟨h1, h2, h3, h4, h5⟩ := h
  constructor <;> simp only [hq, hb] <;> assumption

/-- With 31 records or more the queue ends in some record, which is a marker if there are 32. -/
theorem ReportUnit.Ok.exists_last (h : u.Ok) (hl : 31 ≤ u.queue.length) :
    ∃ before m, u.queue = before ++ [m] ∧ (m.isMarker = false → u.queue.length = 31) := by
  have hne : u.queue ≠ [] := by
    intro e
    simp [e] at hl
  obtain ⟨before, m, e⟩ := (List.eq_nil_or_concat u.queue).resolve_left hne
  refine ⟨before, m, by simpa using e, fun hm => ?_⟩
  by_contra hc
  have := h.full (by have := h.atMost; omega)
  simp [e, hm] at this

/-- RPT takes an ordinary report within the bounds of the queue: it is appended while there is room, and beyond that the marker at the
tail takes the loss (R126). -/
theorem ReportUnit.Ok.take (h : u.Ok) {r : Report} (hr : r.kind ≠ .overflow) : (u.take r).Ok := by
  have hlen : ∀ b, u.batch = some b → 1 ≤ b.size ∧ b.size ≤ 4 ∧ b.size ≤ u.queue.length := h.batch
  by_cases hl : u.queue.length ≤ 30
  · have hm : Record.isMarker ⟨r, u.nextSequence⟩ = false := by simpa [Record.isMarker] using hr
    have hf := List.length_filter_le (fun x : Record => !x.isMarker) u.queue
    constructor <;> simp only [take_queue, take_batch, queueReport_of_room hl]
    case atMost => simp; omega
    case ordinary => simp [hm]; omega
    case apart => simp [markersApart_append_singleton, h.apart, hm]
    case full => simp; omega
    case batch => intro b hb; have := hlen b hb; simp; omega
  · obtain ⟨before, m, e, hm⟩ := h.exists_last (by omega)
    have hap := h.apart
    have hle := h.atMost
    have hord := h.ordinary
    cases hk : m.isMarker with
    | true =>
      constructor <;> simp only [take_queue, take_batch, queueReport_of_marker e (by omega) hk]
      case atMost => simpa [e] using hle
      case ordinary => simpa [e, hk] using hord
      case apart => simpa [e, markersApart_append_singleton] using hap
      case full => simp [hk]
      case batch => simpa [e] using hlen
    | false =>
      have h31 := hm hk
      constructor <;> simp only [take_queue, take_batch, queueReport_of_ordinary e (by omega) hk]
      case atMost => simp; omega
      case ordinary => simpa using hord
      case apart =>
        rw [markersApart_append_singleton, hap, e]
        simp [hk]
      case full => simp
      case batch => intro b hb; have := hlen b hb; simp; omega

theorem ReportUnit.Ok.foldl_take (rs : List Report) (h : u.Ok) (hr : ∀ r ∈ rs, r.kind ≠ .overflow) :
    (rs.foldl ReportUnit.take u).Ok := by
  induction rs generalizing u with
  | nil => exact h
  | cons r rs ih => exact ih (h.take (hr r (by simp))) fun x hx => hr x (by simp [hx])

/-- The records that a batch has left, within the bounds of the queue (R130, R132). -/
theorem ReportUnit.Ok.removeBatch (h : u.Ok) : u.removeBatch.Ok where
  atMost := by have := h.atMost; simp [ReportUnit.removeBatch]; omega
  ordinary := le_trans ((List.drop_sublist _ _).filter _).length_le h.ordinary
  apart := markersApart_drop _ _ h.apart
  full hl := by
    have hd : u.batchSize = 0 := by
      have := h.atMost
      simp only [ReportUnit.removeBatch, List.length_drop] at hl
      omega
    simp only [ReportUnit.removeBatch, hd, List.drop_zero] at hl ⊢
    exact h.full hl
  batch b hb := by cases hb

/-- The batch that a FETCH forms has a record at least and at most as many as it asks for (R129, R130). -/
theorem ReportUnit.Ok.fetch (h : u.Ok) {k : Nat} (h1 : 1 ≤ k) (h4 : k ≤ 4) (tag : Byte) : (u.fetch k tag).Ok := by
  unfold ReportUnit.fetch
  split
  · exact h
  · obtain ⟨a, b, c, d, -⟩ := h.removeBatch
    refine ⟨a, b, c, d, fun x hx => ?_⟩
    simp only [ReportUnit.newBatch] at hx ⊢
    split at hx
    · cases hx
    · next hne =>
      cases hx
      have : u.removeBatch.queue.length ≠ 0 := by simpa using hne
      dsimp only
      omega

theorem ReportUnit.Ok.configure (h : u.Ok) (enable : Bool) (threshold : Nat) (holdTime : Byte) :
    (u.configure enable threshold holdTime).Ok := by
  unfold ReportUnit.configure
  dsimp only
  split <;> exact h.congr rfl rfl

theorem ReportUnit.Ok.tick (h : u.Ok) : u.tick.Ok := by
  unfold ReportUnit.tick
  split <;> exact h.congr rfl rfl

theorem ReportUnit.reset_ok : ReportUnit.reset.Ok where
  atMost := by decide
  ordinary := by decide
  apart := rfl
  full := by decide
  batch b hb := by cases hb

end Bounds

/-- The statement of O44, on the model's own `take`. -/
theorem ReportUnit.take_lost {u : ReportUnit} {r : Report} (h : u.Ok) (hl : 31 ≤ u.queue.length) {before : List Record} {m : Record}
    (hq : u.queue = before ++ [m]) :
    (m.isMarker = true → (u.take r).queue = before ++ [m.countLoss]) ∧
    (m.isMarker = false → u.queue.length = 31 ∧ (u.take r).queue = u.queue ++ [newMarker r u.nextSequence]) := by
  refine ⟨fun hm => by rw [take_queue, queueReport_of_marker hq hl hm], fun hm => ⟨?_, ?_⟩⟩
  · obtain ⟨b', m', e, hc⟩ := h.exists_last hl
    obtain ⟨-, e'⟩ := List.append_inj' (hq.symm.trans e) rfl
    cases e'
    exact hc hm
  · rw [take_queue, queueReport_of_ordinary hq hl hm]

/-- Settles O44: the three cases of R126 are those of `queueReport`, and the bounds survive each. -/
theorem reportIsTaken : Obligations.ReportIsTaken := by
  intro u r h hr
  refine ⟨ReportUnit.take_nextSequence, ReportUnit.take_batch,
    fun hl => ReportUnit.take_queue.trans (queueReport_of_room hl), fun hl before m hq => ?_, h.take hr⟩
  obtain ⟨hmark, hord⟩ := ReportUnit.take_lost (r := r) h hl hq
  exact ⟨fun hm => hmark (by simp [Record.isMarker, hm]), fun hm => hord (by simpa [Record.isMarker] using hm)⟩

/-! ### Every part of a step keeps the bounds -/

/-- The report unit is within its bounds, and no producer has handed it a marker. -/
def State.ReportsOk (s : State) : Prop :=
  s.rpt.Ok ∧ ∀ x ∈ s.outbox, x.2.kind ≠ .overflow

section Reports

variable {s t : State}

theorem State.ReportsOk.congr (h : s.ReportsOk) (hr : t.rpt = s.rpt) (ho : t.outbox = s.outbox) : t.ReportsOk := by
  unfold State.ReportsOk
  rw [hr, ho]
  exact h

theorem State.ReportsOk.effects (h : s.ReportsOk) (e : Effects s t) : t.ReportsOk := by
  obtain ⟨more, ho, hm⟩ := e.reports
  refine ⟨e.rpt ▸ h.1, fun x hx => ?_⟩
  rw [ho] at hx
  rcases List.mem_append.1 hx with hx | hx
  exacts [h.2 x hx, (hm x hx).1]

theorem State.ReportsOk.works (h : s.ReportsOk) {c : Chan} (e : Works c s t) : t.ReportsOk :=
  h.effects (.of_works e)

/-- RPT takes the event's reports, in whatever order, within its bounds. -/
theorem State.ReportsOk.settle (h : s.ReportsOk) : s.settle.ReportsOk := by
  obtain ⟨ys, e, hp, -⟩ := s.takenReports_keeps_order
  have hr : s.takenReports.2.rpt = s.rpt := by rcases s.takenReports_snd with h | h <;> rw [h]
  have hok : (s.takenReports.1.foldl ReportUnit.take s.rpt).Ok := by
    refine h.1.foldl_take _ fun r hr => ?_
    rw [e] at hr
    obtain ⟨x, hx, rfl⟩ := List.mem_map.1 hr
    exact h.2 x (hp.mem_iff.1 hx)
  exact ⟨hok.congr rfl rfl, by simp⟩

theorem State.ReportsOk.report (h : s.ReportsOk) (p : Producer) (kind : ReportKind) (source : Option (Fin 8)) (job : Half)
    (a b : Byte) (hk : kind ≠ .overflow) : (s.report p kind source job a b).ReportsOk :=
  h.effects (effects_report s p kind source job a b hk)

theorem State.ReportsOk.executed (h : s.ReportsOk) (e : Executed s t) : t.ReportsOk := by
  cases e with
  | attention enable threshold holdTime => exact ⟨h.1.configure _ _ _, h.2⟩
  | fetched k tag h1 h4 => exact ⟨h.1.fetch h1 h4 tag, h.2⟩
  | acknowledged => exact ⟨h.1.removeBatch, h.2⟩
  | classCleared k => exact State.ReportsOk.effects (s := s.setClass k none) h (effects_finishAll _ _ _)
  | evicted cs => exact h.effects (effects_evictAll _ _ _ _ _)
  | accepted c j => exact State.ReportsOk.works (s := s.enqueue c _) h (works_playEffect c _ _)
  | cancelled c j => exact h.works (works_dropAndDecide c s j _)
  | stopped cs hn w f =>
    exact (h.effects (effects_withdrawWaiters cs s)).effects
      (effects_forEach _ _ _ fun c u => .of_works (works_stopChannel s.chan w f c u))
  | held cs => exact h.effects (effects_forEach _ _ _ fun c u => .of_works (works_holdChannel c u))
  | resumed cs => exact h.effects (effects_forEach _ _ _ fun c u => .of_works (works_resumeChannel c u))
  | started cs => exact h.effects (effects_startHeads cs s)
  | _ => exact h.congr rfl rfl

theorem State.ReportsOk.abandonLoad (h : s.ReportsOk) : s.abandonLoad.ReportsOk := by
  unfold State.abandonLoad
  split
  · exact h
  · split
    · exact State.ReportsOk.report (s := (s.setEntry _ _).emptySlot) h _ _ _ _ _ _ (by decide)
    · exact h.congr rfl rfl

theorem kept_reportsOk : Kept State.ReportsOk where
  link _ _ h := h
  pending _ _ h := h
  renew _ h := h
  settle _ h := h.settle
  owner r tag s h := h.executed (owner_executed s r tag)
  resetOutputs s h := by
    refine ⟨by rw [State.resetOutputs_rpt]; exact h.1, fun x hx => ?_⟩
    rw [State.resetOutputs_outbox] at hx
    rcases List.mem_append.1 hx with hx | hx
    · exact h.2 x hx
    · rw [List.mem_singleton.1 hx]
      exact ReportKind.noConfusion
  hardReset _ _ _ _ _ := ⟨ReportUnit.reset_ok, by simp [State.hardReset, State.afterReset]⟩
  abandonLoad _ _ h := h.abandonLoad
  expireWindow s c _ h := h.works (works_expireWindow c s)
  stepEnd s c _ h := h.works (works_stepEnd c s)
  cycleEnd s g _ h := h.effects (effects_cycleEnd s g)
  expireWait s c _ h := h.works (works_finishJob c s _)
  readback s c o _ h := h.works (works_readback c s o)
  sample s l h := by
    refine State.ReportsOk.effects ?_ (effects_sampleLines s l)
    exact h
  holdAge _ h := ⟨h.1.congr rfl rfl, h.2⟩
  expireLease s _ h := by
    refine State.ReportsOk.effects ?_ (effects_expireLease s)
    exact h
  endHigh _ _ h := h
  tick s h := by
    obtain ⟨n, q, e⟩ := s.tick_eq
    rw [e]
    exact ⟨h.1.tick, h.2⟩

end Reports

/-- Settles O57: the bounds of the report unit survive every part of a step, and the end of an event hands RPT its reports. -/
theorem stepKeepsReports : Obligations.StepKeepsReports :=
  fun s t ho h e => ⟨(kept_reportsOk.step s t ⟨h, by simp [ho]⟩ e).1, step_outbox e ho⟩

end Sys2Proof.Machine
end

section
/-! PROOFS. Job numbers and the pending queues (R25, R26): the insertion of a job, the allocation of a number, that every part of a step
keeps the queues and the numbers, and the three statements. -/

namespace Sys2Proof.Machine

/-! ### The insertion of a job (R26) -/

section Insert

variable (j : Job) (queue : List Job)

/-- A queue cut where a job is inserted: those of equal or higher priority ahead of it, the others behind. -/
theorem insertJob_eq_append : ∃ before behind, queue = before ++ behind ∧ insertJob j queue = before ++ j :: behind ∧
    (before = queue.takeWhile fun x => j.priority ≤ x.priority) ∧
    behind = queue.dropWhile fun x => j.priority ≤ x.priority :=
  ⟨_, _, List.takeWhile_append_dropWhile.symm, rfl, rfl, rfl⟩

theorem insertJob_perm : (insertJob j queue).Perm (j :: queue) := by
  obtain ⟨before, behind, hq, hi, -, -⟩ := insertJob_eq_append j queue
  rw [hi, hq]
  exact List.perm_middle

variable {queue}

/-- Behind the first job of lower priority every job of an ordered queue has a lower priority. -/
theorem priority_lt_of_mem_dropWhile (h : queue.Pairwise fun a b => b.priority ≤ a.priority) :
    ∀ x ∈ queue.dropWhile (fun x => j.priority ≤ x.priority), x.priority < j.priority := by
  induction queue with
  | nil => simp
  | cons y ys ih =>
    obtain ⟨hy, hys⟩ := List.pairwise_cons.1 h
    by_cases hj : j.priority ≤ y.priority
    · simpa [List.dropWhile_cons, hj] using ih hys
    · intro x hx
      simp only [List.dropWhile_cons, hj, decide_false, Bool.false_eq_true, if_false, List.mem_cons] at hx
      have hlt : y.priority < j.priority := lt_of_not_ge hj
      rcases hx with rfl | hx
      exacts [hlt, lt_of_le_of_lt (hy x hx) hlt]

theorem priority_le_of_mem_takeWhile :
    ∀ x ∈ queue.takeWhile (fun x => j.priority ≤ x.priority), j.priority ≤ x.priority :=
  fun x hx => by simpa using (List.mem_takeWhile_imp hx)

/-- A queue with a job inserted is ordered by priority. -/
theorem insertJob_pairwise (h : queue.Pairwise fun a b => b.priority ≤ a.priority) :
    (insertJob j queue).Pairwise fun a b => b.priority ≤ a.priority := by
  obtain ⟨before, behind, hq, hi, hb, ha⟩ := insertJob_eq_append j queue
  have hbefore : ∀ x ∈ before, j.priority ≤ x.priority := hb ▸ priority_le_of_mem_takeWhile j
  have hbehind : ∀ x ∈ behind, x.priority < j.priority := ha ▸ priority_lt_of_mem_dropWhile j h
  rw [hq, List.pairwise_append] at h
  obtain ⟨h1, h2, h3⟩ := h
  rw [hi, List.pairwise_append, List.pairwise_cons]
  refine ⟨h1, ⟨fun x hx => (hbehind x hx).le, h2⟩, fun x hx y hy => ?_⟩
  rcases List.mem_cons.1 hy with rfl | hy
  exacts [hbefore x hx, h3 x hx y hy]

end Insert

/-- Settles O22: the queue is cut at the first job of lower priority. -/
theorem queueInsertion : Obligations.QueueInsertion := by
  intro j queue h
  obtain ⟨before, behind, hq, hi, hb, ha⟩ := insertJob_eq_append j queue
  exact ⟨insertJob_pairwise j h, before, behind, hq, hi, hb ▸ priority_le_of_mem_takeWhile j,
    ha ▸ priority_lt_of_mem_dropWhile j h⟩

/-! ### The allocation of a number (R25) -/

theorem nextNumber_ne_zero (n : Half) : nextNumber n ≠ 0#16 := by
  unfold nextNumber
  split <;> bv_omega

theorem toNat_nextNumber (n : Half) : (nextNumber n).toNat = n.toNat % 65535 + 1 := by
  unfold nextNumber
  split
  · next e => rw [e]; rfl
  · next e => bv_omega

/-- The counter's values, as positions on a circle of 65535. -/
theorem toNat_nextNumber_iterate {n : Half} (h : n ≠ 0#16) (i : Nat) :
    (nextNumber^[i] n).toNat = (n.toNat - 1 + i) % 65535 + 1 := by
  induction i with
  | zero =>
    have : 1 ≤ n.toNat ∧ n.toNat ≤ 65535 := by bv_omega
    simp only [Function.iterate_zero, id]
    omega
  | succ i ih =>
    rw [Function.iterate_succ_apply', toNat_nextNumber, ih]
    omega

/-- Two of 41 values in a row of the counter are different. -/
theorem nextNumber_iterate_injOn {n : Half} (h : n ≠ 0#16) {i j : Nat} (hi : i < 41) (hj : j < 41)
    (e : nextNumber^[i] n = nextNumber^[j] n) : i = j := by
  have := congrArg BitVec.toNat e
  rw [toNat_nextNumber_iterate h, toNat_nextNumber_iterate h] at this
  omega

theorem State.numberUsed_iff (s : State) (n : Half) : s.numberUsed n = true ↔ n ∈ s.jobNumbers := by
  simp [State.numberUsed, State.jobNumbers]

/-- The search stops at the first number that is not used, or at the end of its steps. -/
theorem State.freeNumber_spec (s : State) (fuel : Nat) (n : Half) :
    ∃ k ≤ fuel, s.freeNumber fuel n = nextNumber^[k] n ∧ (∀ i < k, nextNumber^[i] n ∈ s.jobNumbers) ∧
      (k < fuel → nextNumber^[k] n ∉ s.jobNumbers) := by
  induction fuel generalizing n with
  | zero => exact ⟨0, le_refl _, rfl, by simp, by simp⟩
  | succ fuel ih =>
    unfold State.freeNumber
    split
    · next hu =>
      obtain ⟨k, hk, e, hb, hf⟩ := ih (nextNumber n)
      refine ⟨k + 1, by omega, e, fun i hi => ?_, fun h => hf (by omega)⟩
      cases i with
      | zero => exact (s.numberUsed_iff n).1 hu
      | succ i => exact hb i (by omega)
    · next hu => exact ⟨0, by omega, rfl, by simp, fun _ => mt (s.numberUsed_iff n).2 hu⟩

/-- At most 40 jobs exist: an active one and four queued ones on each channel. -/
theorem State.jobNumbers_length (s : State) (h : ∀ c, (s.chan c).QueueOk) : s.jobNumbers.length ≤ 40 := by
  have hc : ∀ c, (s.chan c).jobNumbers.length ≤ 5 := by
    intro c
    have := (h c).1
    unfold Channel.jobNumbers
    cases (s.chan c).active <;> simp <;> omega
  unfold State.jobNumbers
  rw [List.length_flatMap]
  have := List.sum_le_card_nsmul ((List.finRange 8).map fun c => (s.chan c).jobNumbers.length) 5 (by
    intro n hn
    obtain ⟨c, -, rfl⟩ := List.mem_map.1 hn
    exact hc c)
  simpa using this

/-- Some of 41 values in a row of the counter is free. -/
theorem State.exists_free_number (s : State) (h : ∀ c, (s.chan c).QueueOk) {n : Half} (hn : n ≠ 0#16) :
    ¬∀ i < 41, nextNumber^[i] n ∈ s.jobNumbers := by
  intro hall
  have hnodup : ((List.range 41).map fun i => nextNumber^[i] n).Nodup := by
    refine List.Nodup.map_on (fun i hi j hj e => ?_) List.nodup_range
    exact nextNumber_iterate_injOn hn (List.mem_range.1 hi) (List.mem_range.1 hj) e
  have hsub : ((List.range 41).map fun i => nextNumber^[i] n) ⊆ s.jobNumbers := by
    intro x hx
    obtain ⟨i, hi, rfl⟩ := List.mem_map.1 hx
    exact hall i (List.mem_range.1 hi)
  have hle := (hnodup.subperm hsub).length_le
  have := s.jobNumbers_length h
  simp only [List.length_map, List.length_range] at hle
  omega

/-- Settles O23: the search ends before its 41 steps, since at most 40 numbers are used. -/
theorem jobNumberAllocation : Obligations.JobNumberAllocation := by
  intro s hq hn
  obtain ⟨k, hk, e, hb, hf⟩ := s.freeNumber_spec 41 s.nextJob
  have hlt : k < 41 := by
    refine lt_of_le_of_ne hk fun hk => s.exists_free_number hq hn.counter ?_
    exact hk ▸ hb
  have hz : s.allocatedNumber ≠ 0#16 := by
    intro hc
    have := toNat_nextNumber_iterate hn.counter k
    rw [← e, show s.freeNumber 41 s.nextJob = 0#16 from hc] at this
    simp at this
  exact ⟨hz, by rw [State.allocatedNumber, e]; exact hf hlt, k, hlt, e, hb⟩

/-! ### Every part of a step keeps the queues and the numbers -/

/-- The queues are bounded and ordered; and, where the numbers are to be kept, the job numbers are distinct. The parameter says whether
they are: the numbers are distinct by the bound on the queues, and the queues are bounded without regard to the numbers. -/
def State.JobsOk (numbered : Prop) (s : State) : Prop :=
  (∀ c, (s.chan c).QueueOk) ∧ (numbered → s.NumbersOk)

theorem Channel.QueueOk.shrinks {ch ch' : Channel} (h : ch.QueueOk) (e : Shrinks ch ch') : ch'.QueueOk :=
  ⟨le_trans e.queue.length_le h.1, h.2.sublist e.queue⟩

theorem Channel.QueueOk.of_nil {ch : Channel} (h : ch.queue = []) : ch.QueueOk := by
  simp [Channel.QueueOk, h]

theorem flatMap_sublist {α β : Type} (l : List α) {f g : α → List β} (h : ∀ x, (f x).Sublist (g x)) :
    (l.flatMap f).Sublist (l.flatMap g) := by
  induction l with
  | nil => exact .refl _
  | cons x xs ih =>
    rw [List.flatMap_cons, List.flatMap_cons]
    exact (h x).append ih

section Jobs

variable {N : Prop} {s t : State}

theorem State.NumbersOk.shrinks (h : s.NumbersOk) (hn : t.nextJob = s.nextJob) (e : ∀ c, Shrinks (s.chan c) (t.chan c)) :
    t.NumbersOk := by
  have hsub : t.jobNumbers.Sublist s.jobNumbers := flatMap_sublist _ fun c => (e c).numbers
  exact ⟨hn ▸ h.counter, fun hz => h.nonzero (hsub.subset hz), h.unique.sublist hsub⟩

theorem State.JobsOk.shrinks (h : s.JobsOk N) (hn : t.nextJob = s.nextJob) (e : ∀ c, Shrinks (s.chan c) (t.chan c)) :
    t.JobsOk N :=
  ⟨fun c => (h.1 c).shrinks (e c), fun n => (h.2 n).shrinks hn e⟩

theorem State.JobsOk.congr (h : s.JobsOk N) (hn : t.nextJob = s.nextJob) (e : t.chans = s.chans) : t.JobsOk N :=
  h.shrinks hn fun c => by
    rw [State.chan_congr e]
    exact .refl _

theorem State.JobsOk.effects (h : s.JobsOk N) (e : Effects s t) : t.JobsOk N :=
  h.shrinks e.nextJob e.channels

theorem State.JobsOk.works (h : s.JobsOk N) {c : Chan} (e : Works c s t) : t.JobsOk N :=
  h.effects (.of_works e)

/-- A change of the channels that keeps every channel's jobs, or takes them away. -/
theorem State.JobsOk.mapChans (h : s.JobsOk N) {f : Chan → Channel → Channel} (e : ∀ c, Shrinks (s.chan c) (f c (s.chan c))) :
    (s.mapChans f).JobsOk N :=
  h.shrinks rfl fun c => by simpa using e c

theorem shrinks_empty (ch : Channel) (x : ChState) : Shrinks ch (Channel.empty x ch.config) :=
  ⟨rfl, List.nil_sublist _, by simp [Channel.empty, Channel.jobNumbers]⟩

@[simp] theorem State.chan_enqueue (s : State) (c d : Chan) (j : Job) :
    (s.enqueue c j).chan d
      = if d = c then { s.chan d with queue := insertJob j (s.chan d).queue } else s.chan d :=
  State.chan_modChan _ c d _

/-- The numbers of a channel that a job has joined. -/
theorem Channel.jobNumbers_insert (ch : Channel) (j : Job) :
    Channel.jobNumbers { ch with queue := insertJob j ch.queue } |>.Perm (j.number :: ch.jobNumbers) := by
  unfold Channel.jobNumbers
  refine (((insertJob_perm j ch.queue).map Job.number).append_left _).trans ?_
  exact List.perm_middle

/-- One list of several gains an element: so does their concatenation. -/
theorem flatMap_perm_cons {α β : Type} [DecidableEq α] {l : List α} (hl : l.Nodup) {a : α} (ha : a ∈ l) {f g : α → List β} {x : β}
    (hf : (f a).Perm (x :: g a)) (ho : ∀ b, b ≠ a → f b = g b) : (l.flatMap f).Perm (x :: l.flatMap g) := by
  induction l with
  | nil => cases ha
  | cons b l ih =>
    obtain ⟨hb, hl⟩ := List.nodup_cons.1 hl
    rw [List.flatMap_cons, List.flatMap_cons]
    by_cases e : b = a
    · subst e
      have : l.flatMap f = l.flatMap g := List.flatMap_congr fun y hy => ho y (by rintro rfl; exact hb hy)
      rw [this]
      exact hf.append_right _
    · rw [ho b e]
      refine ((ih hl ((List.mem_cons.1 ha).resolve_left (Ne.symm e))).append_left _).trans ?_
      exact List.perm_middle

/-- The numbers of the jobs once one has joined a queue. -/
theorem State.jobNumbers_enqueue (s : State) (c : Chan) (j : Job) :
    (s.enqueue c j).jobNumbers.Perm (j.number :: s.jobNumbers) := by
  refine flatMap_perm_cons (List.nodup_finRange 8) (List.mem_finRange c) ?_ fun d hd => by simp [hd]
  simpa using (s.chan c).jobNumbers_insert j

/-- A job joins a queue with room, with a number that no job holds (R25, R26). -/
theorem State.JobsOk.enqueue (h : s.JobsOk N) {c : Chan} (hr : (s.chan c).queue.length < 4) (j : Job) :
    (s.enqueue c { j with number := s.allocatedNumber }).JobsOk N := by
  refine ⟨fun d => ?_, fun n => ?_⟩
  · rw [State.chan_enqueue]
    split
    · next e =>
      subst e
      refine ⟨?_, insertJob_pairwise _ (h.1 d).2⟩
      rw [(insertJob_perm _ _).length_eq]
      exact hr
    · exact h.1 d
  · obtain ⟨hz, hfree, -⟩ := jobNumberAllocation s h.1 (h.2 n)
    have hp := s.jobNumbers_enqueue c { j with number := s.allocatedNumber }
    refine ⟨nextNumber_ne_zero _, fun hc => ?_, hp.nodup_iff.2 (List.nodup_cons.2 ⟨hfree, (h.2 n).unique⟩)⟩
    rcases List.mem_cons.1 (hp.mem_iff.1 hc) with hc | hc
    exacts [hz hc.symm, (h.2 n).nonzero hc]

/-- A PLAY that passes the checks finds room in the queue (R28). -/
theorem State.playRefusal_room {c : Chan} {p : PatId} (h : s.playRefusal c p = none) : (s.chan c).queue.length < 4 := by
  unfold State.playRefusal at h
  repeat' split at h
  all_goals first | omega | cases h

theorem State.JobsOk.executed (h : s.JobsOk N) (e : Executed s t) : t.JobsOk N := by
  cases e with
  | recovered =>
    refine State.JobsOk.congr (h.mapChans (f := fun _ ch => if ch.state = .safe then { ch with state := .idle } else ch)
      fun c => ?_) rfl rfl
    split
    exacts [shrinks_fields rfl rfl rfl, .refl _]
  | classCleared k =>
    exact State.JobsOk.effects (s := s.setClass k none) (h.congr rfl rfl) (effects_finishAll _ _ _)
  | configured c cfg =>
    refine ⟨fun d => ?_, fun n => ?_⟩
    · rw [State.chan_modChan]
      split <;> exact h.1 d
    · have e : (s.modChan c fun ch => { ch with config := cfg }).jobNumbers = s.jobNumbers :=
        List.flatMap_congr fun d _ => by
          rw [State.chan_modChan]
          split <;> rfl
      exact ⟨(h.2 n).counter, e ▸ (h.2 n).nonzero, e ▸ (h.2 n).unique⟩
  | enlisted mask x =>
    refine h.mapChans fun c => ?_
    split
    exacts [shrinks_fields rfl rfl rfl, .refl _]
  | disabled mask =>
    refine h.mapChans fun c => ?_
    split
    exacts [shrinks_empty _ _, .refl _]
  | evicted cs => exact h.effects (effects_evictAll _ _ _ _ _)
  | accepted c j hr => exact (h.enqueue (State.playRefusal_room hr) j).works (works_playEffect c _ _)
  | cancelled c j => exact h.works (works_dropAndDecide c s j _)
  | stopped cs hn w f =>
    exact (h.effects (effects_withdrawWaiters cs s)).effects
      (effects_forEach _ _ _ fun c u => .of_works (works_stopChannel s.chan w f c u))
  | held cs => exact h.effects (effects_forEach _ _ _ fun c u => .of_works (works_holdChannel c u))
  | resumed cs => exact h.effects (effects_forEach _ _ _ fun c u => .of_works (works_resumeChannel c u))
  | started cs => exact h.effects (effects_startHeads cs s)
  | _ => exact h.congr rfl rfl

/-- The part after a hardware reset has no jobs, and its counter is 1 (R47). -/
theorem State.jobsOk_hardReset (s : State) (a : BitVec 4) (r : BitVec 2) (x : BitVec 8) : (s.hardReset a r x).JobsOk N := by
  have hc : ∀ c, (s.hardReset a r x).chan c = Channel.empty .off .default := by
    intro c
    simp [State.hardReset, State.afterReset, State.chan]
  have hn : (s.hardReset a r x).jobNumbers = [] := by
    simp [State.jobNumbers, hc, Channel.empty, Channel.jobNumbers]
  exact ⟨fun c => .of_nil (by rw [hc]; rfl), fun _ => ⟨by simp [State.hardReset, State.afterReset], by simp [hn], by simp [hn]⟩⟩

theorem shrinks_tick (ch : Channel) : Shrinks ch ch.tick :=
  shrinks_fields rfl rfl (by
    unfold Channel.tick Active.tick
    cases ch.active with
    | none => rfl
    | some a =>
      dsimp only [Option.map_some]
      split <;> rfl)

@[simp] theorem State.chan_advance (s : State) (c : Chan) : s.advance.chan c = (s.chan c).tick := by
  simp [State.advance, State.chan]

theorem kept_jobsOk : Kept (State.JobsOk N) where
  link _ _ h := h.congr rfl rfl
  pending _ _ h := h.congr rfl rfl
  renew _ h := h.congr rfl rfl
  settle s h := h.congr (by simp) (by simp)
  owner r tag s h := h.executed (owner_executed s r tag)
  resetOutputs s h := h.shrinks (by simp) fun c => by
    rw [State.chan_resetOutputs]
    exact shrinks_empty _ _
  hardReset a r x s _ := s.jobsOk_hardReset a r x
  abandonLoad s _ h := by
    unfold State.abandonLoad
    split
    · exact h
    · split <;> exact h.congr rfl rfl
  expireWindow s c _ h := h.works (works_expireWindow c s)
  stepEnd s c _ h := h.works (works_stepEnd c s)
  cycleEnd s g _ h := h.effects (effects_cycleEnd s g)
  expireWait s c _ h := h.works (works_finishJob c s _)
  readback s c o _ h := h.works (works_readback c s o)
  sample s l h := by
    refine State.JobsOk.effects ?_ (effects_sampleLines s l)
    exact h.congr rfl rfl
  holdAge _ h := h.congr rfl rfl
  expireLease s _ h := by
    refine State.JobsOk.effects ?_ (effects_expireLease s)
    exact h.congr rfl rfl
  endHigh _ _ h := h.congr rfl rfl
  tick s h := by
    obtain ⟨n, q, e⟩ := s.tick_eq
    rw [e]
    refine h.shrinks rfl fun c => ?_
    have := shrinks_tick (s.chan c)
    rw [← State.chan_advance] at this
    exact this

end Jobs

/-- Settles O59: a queue shrinks but where a PLAY with room inserts a job, whose number is a free one. -/
theorem stepKeepsJobs : Obligations.StepKeepsJobs :=
  fun s t h e => kept_jobsOk (N := s.NumbersOk) |>.step s t ⟨h, id⟩ e

end Sys2Proof.Machine
end

section
/-! PROOFS. The tables (R1, R3, R4, R76, R79, R84, R90): that every part of a step keeps the pattern table, the carrier classes and what
the generators and the wait list hold, and the statement. -/

namespace Sys2Proof.Machine

/-! ### The pattern table -/

section Table

variable {s t : State}

@[simp] theorem Entry.reserved_free : Entry.free.reserved = 0 := rfl

@[simp] theorem Entry.reserved_loading (h : Header) (steps : List Step) : (Entry.loading h steps).reserved = h.count := rfl

@[simp] theorem Entry.reserved_ready (h : Header) (steps : List Step) (n : Nat) : (Entry.ready h steps n).reserved = h.count := rfl

@[simp] theorem Entry.reserved_clearRefs (e : Entry) : e.clearRefs.reserved = e.reserved := by
  cases e <;> rfl

theorem Entry.ok_clearRefs (e : Entry) : e.clearRefs.Ok ↔ e.Ok := by
  cases e <;> rfl

theorem Entry.clearRefs_eq_loading {e : Entry} {h : Header} {steps : List Step} :
    e.clearRefs = .loading h steps ↔ e = .loading h steps := by
  cases e <;> simp [Entry.clearRefs]

/-- The reserved positions depend on what the entries hold beside their reference counts (R3). -/
theorem State.reservedSteps_congr (h : ∀ p, (t.entry p).clearRefs = (s.entry p).clearRefs) :
    t.ptab.reservedSteps = s.ptab.reservedSteps := by
  unfold PatternTable.reservedSteps
  refine congrArg List.sum (List.ext_getElem (by simp) fun n h1 h2 => ?_)
  have hn : n < 32 := by simpa using h1
  have := congrArg Entry.reserved (h ⟨n, hn⟩)
  simpa [State.entry] using this

/-- The bounds of the pattern table do not speak of the reference counts. -/
theorem PatternTable.Ok.congr (h : s.ptab.Ok) (he : ∀ p, (t.entry p).clearRefs = (s.entry p).clearRefs)
    (hl : t.ptab.load.map Load.id = s.ptab.load.map Load.id) : t.ptab.Ok where
  entries p := (Entry.ok_clearRefs (t.entry p)).1 (by rw [he p]; exact (Entry.ok_clearRefs _).2 (h.entries p))
  pool := by rw [State.reservedSteps_congr he]; exact h.pool
  slot p := by
    rw [hl, h.slot p]
    change (∃ g steps, s.entry p = _) ↔ ∃ g steps, t.entry p = _
    refine exists₂_congr fun g steps => ?_
    rw [← Entry.clearRefs_eq_loading, ← he p, Entry.clearRefs_eq_loading]

theorem PatternTable.Ok.effects (h : s.ptab.Ok) (e : Effects s t) : t.ptab.Ok :=
  h.congr e.entries (by rw [e.load])

theorem PatternTable.Ok.works (h : s.ptab.Ok) {c : Chan} (e : Works c s t) : t.ptab.Ok :=
  h.congr e.entries (by rw [e.load])

/-- The open load stands in the load slot (R4). -/
theorem State.openLoad_eq_some {id : PatId} {h : Header} {steps : List Step} (ho : s.openLoad id = some (h, steps)) :
    s.ptab.load.map Load.id = some id ∧ s.entry id = .loading h steps := by
  unfold State.openLoad at ho
  split at ho
  · next l hl =>
    split at ho
    · next hid =>
      split at ho
      · next e => cases ho; exact ⟨by rw [hl, ← hid]; rfl, e⟩
      · cases ho
    · cases ho
  · cases ho

/-- An entry is written and the load slot is set: the new entry must be as its state says, within the pool, and the slot must hold the one
LOADING entry that is then left. -/
theorem PatternTable.Ok.write (h : s.ptab.Ok) {id : PatId} {e : Entry} (hu : ∀ p, t.entry p = if p = id then e else s.entry p)
    (hr : t.ptab.reservedSteps + (s.entry id).reserved = s.ptab.reservedSteps + e.reserved) (he : e.Ok)
    (hp : s.ptab.reservedSteps + e.reserved ≤ Config.poolSteps + (s.entry id).reserved)
    (hid : t.ptab.load.map Load.id = some id ↔ ∃ g steps, e = .loading g steps)
    (ho : ∀ p, p ≠ id → (t.ptab.load.map Load.id = some p ↔ s.ptab.load.map Load.id = some p)) : t.ptab.Ok where
  entries p := by
    change (t.entry p).Ok
    rw [hu]
    split
    exacts [he, h.entries p]
  pool := by omega
  slot p := by
    change _ ↔ ∃ g steps, t.entry p = _
    rw [hu]
    split
    · next e => rw [e]; exact hid
    · next e => rw [ho p e]; exact h.slot p

theorem PatternTable.Ok.abandonLoad (h : s.ptab.Ok) : s.abandonLoad.ptab.Ok := by
  unfold State.abandonLoad
  split
  · exact h
  · next l hl =>
    split
    · next g steps he =>
      refine h.write (id := l.id) (e := .free) (fun p => s.entry_setEntry l.id p .free) (s.reservedSteps_setEntry l.id .free)
        trivial (by have := h.pool; simp only [Entry.reserved_free]; omega) ?_ fun p hp => ?_
      · simp [State.report]
      · simp [State.report, hl, hp.symm]
    · next hne =>
      obtain ⟨g, steps, e⟩ := (h.slot l.id).1 (by rw [hl]; rfl)
      exact absurd e (hne g steps)

theorem PatternTable.Ok.executed (h : s.ptab.Ok) (e : Executed s t) : t.ptab.Ok := by
  have hpool := h.pool
  cases e with
  | opened id g hn ho _ hr =>
    have hload : ∀ p, p ≠ id → s.ptab.load.map Load.id ≠ some p := by
      intro p hp hc
      unfold State.otherLoad at ho
      cases hl : s.ptab.load with
      | none => simp [hl] at hc
      | some l => simp [hl] at ho hc; exact hp (hc.symm.trans ho)
    refine h.write (id := id) (s.entry_setEntry id · _) (s.reservedSteps_setEntry id _) ⟨hn.1, hn.2.1, hn.2.2, Nat.zero_le _⟩ ?_
      ⟨fun _ => ⟨g, [], rfl⟩, fun _ => rfl⟩ fun p hp => ?_
    · simp only [PatternTable.freeSteps] at hr
      simp only [Entry.reserved_loading]
      omega
    · simp [State.startLoad, hload p hp, hp.symm]
  | appended id g steps new ho hn =>
    obtain ⟨hl, he⟩ := State.openLoad_eq_some ho
    obtain ⟨h1, h2, h3, -⟩ : (Entry.loading g steps).Ok := he ▸ h.entries id
    refine h.write (id := id) (s.entry_setEntry id · _) (s.reservedSteps_setEntry id _)
      ⟨h1, h2, h3, by simpa using hn⟩ ?_ ⟨fun _ => ⟨g, _, rfl⟩, fun _ => rfl⟩ fun p hp => ?_
    · simp only [he, Entry.reserved_loading]
      omega
    · simp [State.startLoad, hl, hp.symm]
  | resent id g steps ho => exact h.congr (fun _ => rfl) (State.openLoad_eq_some ho).1.symm
  | sealed id g steps ho hn =>
    obtain ⟨hl, he⟩ := State.openLoad_eq_some ho
    obtain ⟨h1, h2, h3, h4⟩ : (Entry.loading g steps).Ok := he ▸ h.entries id
    refine h.write (id := id) (s.entry_setEntry id · _) (s.reservedSteps_setEntry id _) ⟨h1, h2, h3, by omega⟩ ?_
      (by simp) fun p hp => ?_
    · simp only [he, Entry.reserved_loading, Entry.reserved_ready]
      omega
    · simp [hl, hp.symm]
  | discarded id g steps ho =>
    obtain ⟨hl, he⟩ := State.openLoad_eq_some ho
    refine h.write (id := id) (s.entry_setEntry id · _) (s.reservedSteps_setEntry id _) trivial ?_ (by simp) fun p hp => ?_
    · simp only [Entry.reserved_free]
      omega
    · simp [hl, hp.symm]
  | deleted id g steps he =>
    have hl : s.ptab.load.map Load.id ≠ some id := fun hc => by
      obtain ⟨_, _, e⟩ := (h.slot id).1 hc
      cases he.symm.trans e
    refine h.write (id := id) (s.entry_setEntry id · _) (s.reservedSteps_setEntry id _) trivial ?_ (by simpa using hl)
      fun p hp => Iff.rfl
    simp only [Entry.reserved_free]
    omega
  | classCleared k => exact PatternTable.Ok.effects (s := s.setClass k none) h (effects_finishAll _ _ _)
  | evicted cs => exact h.effects (effects_evictAll _ _ _ _ _)
  | accepted c j =>
    have he : (s.enqueue c { j with number := s.allocatedNumber }).ptab.Ok := by
      refine h.congr (fun p => ?_) rfl
      change ((s.addRef j.pattern).entry p).clearRefs = _
      unfold State.addRef
      rw [State.entry_setEntry]
      split
      · next e => rw [e, Entry.clearRefs_addRef]
      · rfl
    exact he.works (works_playEffect c _ _)
  | cancelled c j => exact h.works (works_dropAndDecide c s j _)
  | stopped cs hn w f =>
    exact (h.effects (effects_withdrawWaiters cs s)).effects
      (effects_forEach _ _ _ fun c u => .of_works (works_stopChannel s.chan w f c u))
  | held cs => exact h.effects (effects_forEach _ _ _ fun c u => .of_works (works_holdChannel c u))
  | resumed cs => exact h.effects (effects_forEach _ _ _ fun c u => .of_works (works_resumeChannel c u))
  | started cs => exact h.effects (effects_startHeads cs s)
  | _ => exact h

theorem PatternTable.reset_ok : PatternTable.reset.Ok where
  entries p := by simp [PatternTable.reset, Entry.Ok]
  pool := by decide
  slot p := by simp [PatternTable.reset]

theorem kept_ptabOk : Kept fun s => s.ptab.Ok where
  link _ _ h := h
  pending _ _ h := h
  renew _ h := h
  settle s h := by rw [State.settle_ptab]; exact h
  owner r tag s h := h.executed (owner_executed s r tag)
  resetOutputs s h := h.congr (by simp) (by simp)
  hardReset _ _ _ _ _ := PatternTable.reset_ok
  abandonLoad _ _ h := h.abandonLoad
  expireWindow s c _ h := h.works (works_expireWindow c s)
  stepEnd s c _ h := h.works (works_stepEnd c s)
  cycleEnd s g _ h := h.effects (effects_cycleEnd s g)
  expireWait s c _ h := h.works (works_finishJob c s _)
  readback s c o _ h := h.works (works_readback c s o)
  sample s l h := by
    refine PatternTable.Ok.effects ?_ (effects_sampleLines s l)
    exact h
  holdAge _ h := h
  expireLease s _ h := by
    refine PatternTable.Ok.effects ?_ (effects_expireLease s)
    exact h
  endHigh _ _ h := h
  tick s h := by
    obtain ⟨n, q, e⟩ := s.tick_eq
    rw [e]
    refine h.congr (fun _ => rfl) ?_
    change (s.ptab.load.map Load.tick).map Load.id = _
    cases s.ptab.load <;> rfl

end Table

/-! ### The carrier classes (R76) -/

section Classes

variable {s t : State}

theorem State.ClassesOk.congr (h : s.ClassesOk) (e : t.carb.classes = s.carb.classes) : t.ClassesOk := by
  intro k x hx
  exact h k x (by simpa only [State.carrierClass, e] using hx)

theorem State.ClassesOk.setClass (h : s.ClassesOk) {k : Cls} {x : Option CarrierClass}
    (hx : ∀ y, x = some y → 16 ≤ y.period ∧ y.period ≤ 65535 ∧ 1 ≤ y.high ∧ y.high < y.period) : (s.setClass k x).ClassesOk := by
  intro m y hy
  rw [State.carrierClass_setClass] at hy
  split at hy
  exacts [hx y hy, h m y hy]

theorem State.ClassesOk.executed (h : s.ClassesOk) (e : Executed s t) : t.ClassesOk := by
  cases e with
  | classSet k x hx => exact h.setClass fun y e => by cases e; exact hx
  | classCleared k =>
    have h' : (s.setClass k none).ClassesOk := h.setClass fun _ e => by cases e
    exact h'.congr (effects_finishAll _ _ _).classes
  | evicted cs => exact h.congr (effects_evictAll _ _ _ _ _).classes
  | accepted c j => exact h.congr (works_playEffect c _ _).classes
  | cancelled c j => exact h.congr (works_dropAndDecide c s j _).classes
  | stopped cs hn w f =>
    exact h.congr ((effects_withdrawWaiters cs s).trans
      (effects_forEach _ _ _ fun c u => .of_works (works_stopChannel s.chan w f c u))).classes
  | held cs => exact h.congr (effects_forEach _ _ _ fun c u => .of_works (works_holdChannel c u)).classes
  | resumed cs => exact h.congr (effects_forEach _ _ _ fun c u => .of_works (works_resumeChannel c u)).classes
  | started cs => exact h.congr (effects_startHeads cs s).classes
  | _ => exact h

theorem kept_classesOk : Kept State.ClassesOk where
  link _ _ h := h
  pending _ _ h := h
  renew _ h := h
  settle s h := h.congr (by simp)
  owner r tag s h := h.executed (owner_executed s r tag)
  resetOutputs s h := h.congr (by simp)
  hardReset _ _ _ _ _ k x hx := by simp [State.hardReset, State.afterReset, State.carrierClass, Carriers.reset] at hx
  abandonLoad s _ h := by
    unfold State.abandonLoad
    split
    · exact h
    · split <;> exact h
  expireWindow s c _ h := h.congr (works_expireWindow c s).classes
  stepEnd s c _ h := h.congr (works_stepEnd c s).classes
  cycleEnd s g _ h := h.congr (effects_cycleEnd s g).classes
  expireWait s c _ h := h.congr (works_finishJob c s _).classes
  readback s c o _ h := h.congr (works_readback c s o).classes
  sample s l h := h.congr (effects_sampleLines s l).classes
  holdAge _ h := h
  expireLease s _ h := h.congr (effects_expireLease s).classes
  endHigh _ _ h := h
  tick s h := by
    obtain ⟨n, q, e⟩ := s.tick_eq
    rw [e]
    exact h

end Classes

/-! ### The generators and the wait list: the operations of CARB -/

section Carb

variable {s t : State}

/-- What CARB keeps is read from CARB alone. -/
theorem State.CarriersOk.congr (h : s.CarriersOk) (e : t.carb = s.carb) : t.CarriersOk := by
  obtain ⟨h1, h2, h3⟩ := h
  constructor <;> simp only [State.gen_congr e, e] <;> assumption

/-- A generator that keeps its class, FREE or not. -/
theorem State.CarriersOk.setGen (h : s.CarriersOk) (g : GenId) {x : Gen} (hx : x.cls = (s.gen g).cls) : (s.setGen g x).CarriersOk := by
  have hc : ∀ k, ((s.setGen g x).gen k).cls = (s.gen k).cls := by
    intro k
    rw [State.gen_setGen]
    split
    · next e => rw [e, hx]
    · rfl
  have hf : ∀ y : Gen, y = .free ↔ y.cls = none := fun y => by cases y <;> simp [Gen.cls]
  obtain ⟨h1, h2, h3⟩ := h
  constructor <;> simp only [hc, hf, State.setGen_waitList, ne_eq] at * <;> assumption

theorem State.CarriersOk.setWaitList (h : s.CarriersOk) {ws : List Waiter} (hw : ws ⊆ s.carb.waitList) :
    (s.setWaitList ws).CarriersOk where
  distinct := h.distinct
  waiting w hm := h.waiting w (hw hm)
  served hne := h.served fun e => hne (List.eq_nil_iff_forall_not_mem.2 fun w hm => by simpa [e] using hw hm)

theorem State.CarriersOk.leaveWaitList (h : s.CarriersOk) (c : Chan) : (s.leaveWaitList c).CarriersOk :=
  (h.setWaitList (List.filter_sublist.subset)).congr rfl

/-- A generator becomes FREE, and is granted to the oldest waiter's class in the same event if a channel waits (R90). -/
theorem State.CarriersOk.releaseGen (h : s.CarriersOk) (g : GenId) : (s.releaseGen g).CarriersOk := by
  unfold State.releaseGen
  cases hw : s.carb.waitList with
  | nil =>
    rw [State.grant_of_nobody (s := s.setGen g .free) hw]
    refine ⟨fun i j k hi hj => ?_, by simp [hw], fun hne => absurd hw hne⟩
    rw [State.gen_setGen] at hi hj
    split at hi
    · cases hi
    · split at hj
      · cases hj
      · exact h.distinct i j k hi hj
  | cons w rest =>
    obtain ⟨hg, ho, -, hl, -, -⟩ := State.grant_of_waiter (s := s.setGen g .free) (g := g) hw
    have hother : ∀ i, i ≠ g → ((s.setGen g .free).grant g).gen i = s.gen i := fun i hi => by
      rw [ho i hi, State.gen_setGen, if_neg hi]
    have hnone : ∀ i, (s.gen i).cls ≠ some w.cls := h.waiting w (by simp [hw])
    refine ⟨fun i j k hi hj => ?_, fun y hy i => ?_, fun _ i => ?_⟩
    · by_cases ei : i = g <;> by_cases ej : j = g
      · exact ei.trans ej.symm
      · subst ei
        rw [hg] at hi
        cases hi
        exact absurd ((hother j ej) ▸ hj) (hnone j)
      · subst ej
        rw [hg] at hj
        cases hj
        exact absurd ((hother i ei) ▸ hi) (hnone i)
      · rw [hother i ei] at hi
        rw [hother j ej] at hj
        exact h.distinct i j k hi hj
    · rw [hl] at hy
      obtain ⟨hy, hc⟩ := List.mem_filter.1 hy
      by_cases ei : i = g
      · subst ei
        rw [hg]
        intro e
        have hne : y.cls ≠ w.cls := by simpa using hc
        exact hne (Option.some.inj e).symm
      · rw [hother i ei]
        exact h.waiting y hy i
    · by_cases ei : i = g
      · subst ei
        rw [hg]
        simp
      · rw [hother i ei]
        exact h.served (by simp [hw]) i

theorem State.CarriersOk.lastUserLeft (h : s.CarriersOk) (g : GenId) : (s.lastUserLeft g).CarriersOk := by
  unfold State.lastUserLeft
  split
  · next hg =>
    split
    · exact h.releaseGen g
    · exact h.setGen g (by rw [hg]; rfl)
  · exact h

theorem State.CarriersOk.detach (h : s.CarriersOk) (c : Chan) : (s.detach c).CarriersOk := by
  unfold State.detach
  split
  · exact h
  · have h' := fun f => State.CarriersOk.congr (t := s.modActive c f) h rfl
    dsimp only
    split
    exacts [(h' _).lastUserLeft _, h' _]

theorem State.CarriersOk.giveUpCarrier (h : s.CarriersOk) (c : Chan) : (s.giveUpCarrier c).CarriersOk :=
  (h.leaveWaitList c).detach c

@[simp] theorem Gen.joined_cls (x : Gen) : x.joined.cls = x.cls := by
  cases x <;> rfl

theorem State.holder_eq_none {k : Cls} : s.holder k = none ↔ ∀ g, (s.gen g).cls ≠ some k := by
  simp [State.holder]

theorem State.freeGen_eq_none : s.freeGen = none ↔ ∀ g, s.gen g ≠ .free := by
  simp [State.freeGen]

theorem State.freeGen_eq_some {g : GenId} (h : s.freeGen = some g) : s.gen g = .free := by
  simpa using List.find?_some h

/-- A request joins a holder, takes a FREE generator, which nobody waits for, or waits while there is none (R81). -/
theorem State.CarriersOk.request (h : s.CarriersOk) (c : Chan) (k : Cls) : (s.request c k).CarriersOk := by
  unfold State.request
  split
  · exact (h.setGen _ (Gen.joined_cls _)).congr rfl
  · next hk =>
    have hk := State.holder_eq_none.1 hk
    split
    · next g hg =>
      have hg := State.freeGen_eq_some hg
      have hw : s.carb.waitList = [] := by_contra fun hne => h.served hne g hg
      refine State.CarriersOk.congr (s := s.setGen g (.running k 0 true)) ⟨fun i j m hi hj => ?_, ?_, ?_⟩ rfl
      · rw [State.gen_setGen] at hi hj
        split at hi <;> split at hj
        · next ei ej => exact ei.trans ej.symm
        · cases hi; exact absurd hj (hk j)
        · cases hj; exact absurd hi (hk i)
        · exact h.distinct i j m hi hj
      · simp [hw]
      · simp [hw]
    · next hf =>
      have hf := State.freeGen_eq_none.1 hf
      refine State.CarriersOk.congr (s := s.setWaitList (s.carb.waitList ++ [⟨c, k⟩])) ⟨h.distinct, fun w hw => ?_, fun _ => hf⟩ rfl
      rcases List.mem_append.1 hw with hw | hw
      · exact h.waiting w hw
      · rw [List.mem_singleton.1 hw]
        exact hk

end Carb

/-! ### The generators and the wait list: the work of a channel -/

section CarbWork

variable {s t : State} (c : Chan)

theorem State.CarriersOk.endJob (h : s.CarriersOk) (o : JobOutcome) : (s.endJob c o).CarriersOk := by
  unfold State.endJob
  split
  · exact h
  · dsimp only
    split <;> exact (h.giveUpCarrier c).congr rfl

theorem State.CarriersOk.enterStep (h : s.CarriersOk) : (s.enterStep c).1.CarriersOk := by
  have hm : ∀ (u : State) (a : Active) (x : Step), (u.markEntry c a x).carb = u.carb := by
    intro u a x
    unfold State.markEntry
    split <;> rfl
  unfold State.enterStep
  split
  · exact h
  · split
    · exact h
    · split
      · unfold State.enterCarrierStep
        split
        · exact h
        · exact State.CarriersOk.request (h.congr (hm (s.modActive c _) _ _)) c _
      · exact h.congr (hm (s.modChan c _) _ _)

theorem State.carb_startJob (s : State) (j : Job) (rest : List Job) : (s.startJob c j rest).carb = s.carb := by
  unfold State.startJob State.startReport
  split <;> rfl

theorem State.CarriersOk.decideHead (q : List Job) (h : s.CarriersOk) : (State.decideHead c q s).CarriersOk := by
  induction q generalizing s with
  | nil => exact h.congr rfl
  | cons j rest ih =>
    unfold State.decideHead
    split
    · have k := State.CarriersOk.enterStep c (h.congr (s.carb_startJob c j rest))
      split <;> rename_i e <;> rw [e] at k
      · exact k
      · exact ih (k.endJob c _)
    · exact h.congr rfl

theorem State.CarriersOk.startHead (h : s.CarriersOk) : (s.startHead c).CarriersOk := by
  unfold State.startHead
  split
  · exact h
  · next j rest _ =>
    have k := State.CarriersOk.enterStep c (h.congr (s.carb_startJob c j rest))
    split <;> rename_i e <;> rw [e] at k
    · exact k
    · exact (k.endJob c _).decideHead c _

theorem State.CarriersOk.afterEnd (h : s.CarriersOk) : (s.afterEnd c).CarriersOk := by
  unfold State.afterEnd
  split
  exacts [h.congr rfl, h.decideHead c _]

theorem State.CarriersOk.finishJob (h : s.CarriersOk) (o : JobOutcome) : (s.finishJob c o).CarriersOk :=
  (h.endJob c o).afterEnd c

theorem State.CarriersOk.enterNext (h : s.CarriersOk) : (s.enterNext c).CarriersOk := by
  have k := h.enterStep c
  unfold State.enterNext
  split <;> rename_i e <;> rw [e] at k
  exacts [k, k.finishJob c _]

theorem State.carb_moveRef (s : State) (p q : PatId) : (s.moveRef p q).carb = s.carb := by
  unfold State.moveRef
  split <;> rfl

theorem State.carb_continueStep (s : State) (a : Active) : (s.continueStep c a).carb = s.carb := by
  unfold State.continueStep State.markEntry
  repeat' split
  all_goals rfl

theorem State.CarriersOk.stepEnd (h : s.CarriersOk) : (s.stepEnd c).CarriersOk := by
  unfold State.stepEnd
  split
  · exact h
  · next a _ =>
    split
    · exact h.finishJob c _
    · next next _ =>
      have h' := h.congr (s.carb_moveRef a.job.pattern next.job.pattern)
      split
      · exact h'.congr (State.carb_continueStep c _ _)
      · have hw : ((s.moveRef a.job.pattern next.job.pattern).modChan c (Channel.withActive next)).CarriersOk := h'.congr rfl
        exact (hw.detach c).enterNext c

theorem State.CarriersOk.heldStep (h : s.CarriersOk) : (s.heldStep c).CarriersOk := by
  unfold State.heldStep
  split
  · exact h
  · split
    · exact h.finishJob c _
    · split
      · split
        · exact h.finishJob c _
        · exact h.congr (State.carb_moveRef _ _ _)
      · exact h

theorem State.CarriersOk.holdJob (h : s.CarriersOk) (f : HeldFrom) (r : ResumePoint) : (s.holdJob c f r).CarriersOk :=
  State.CarriersOk.heldStep c ((h.giveUpCarrier c).congr rfl)

theorem State.CarriersOk.holdChannel (h : s.CarriersOk) : (State.holdChannel c s).CarriersOk := by
  unfold State.holdChannel
  repeat' split
  all_goals first
    | exact h
    | exact h.congr rfl
    | exact h.holdJob c _ _

theorem State.CarriersOk.resumeChannel (h : s.CarriersOk) : (State.resumeChannel c s).CarriersOk := by
  have hl : (s.modChan c Channel.leaveHeld).CarriersOk := h.congr rfl
  unfold State.resumeChannel
  split
  · split
    · exact hl.decideHead c _
    · exact hl.congr rfl
    · unfold State.resumeCarrier
      split
      · split
        exacts [hl.finishJob c _, hl.request c _]
      · exact hl
    · exact hl.enterNext c
  · exact h.congr rfl
  · exact h

theorem State.CarriersOk.cycleEndUser (h : s.CarriersOk) (g : GenId) : (State.cycleEndUser g c s).CarriersOk := by
  unfold State.cycleEndUser
  repeat' split
  all_goals first
    | exact h
    | exact h.congr rfl
    | exact h.holdJob c _ _
    | exact h.stepEnd c

theorem State.CarriersOk.playEffect (h : s.CarriersOk) (p : Bool) : (s.playEffect c p).CarriersOk := by
  have hp : (s.preempt c).CarriersOk := by
    unfold State.preempt
    split
    exacts [h.congr rfl, h.finishJob c _]
  unfold State.playEffect
  repeat' split
  all_goals first
    | exact h
    | exact hp
    | exact h.decideHead c _

theorem State.CarriersOk.dropJob (h : s.CarriersOk) (j : Job) (r : DropReason) : (s.dropJob c j r).CarriersOk :=
  h.congr rfl

theorem State.CarriersOk.dropAll (h : s.CarriersOk) (r : DropReason) : (s.dropAll c r).CarriersOk :=
  h.congr (s.leavesCarriers_dropAll c r).1

theorem State.CarriersOk.dropAndDecide (h : s.CarriersOk) (j : Job) (r : DropReason) : (s.dropAndDecide c j r).CarriersOk := by
  have hd := h.dropJob c j r
  unfold State.dropAndDecide
  dsimp only
  split
  exacts [hd.decideHead c _, hd]

theorem State.CarriersOk.stopChannel (h : s.CarriersOk) (before : Chan → Channel) (w : StopWhen) (f : Bool) :
    (State.stopChannel before w f c s).CarriersOk := by
  have hj : (s.stopJob c (before c) w).CarriersOk := by
    unfold State.stopJob
    repeat' split
    all_goals first
      | exact h
      | exact h.congr rfl
      | exact h.endJob c _
  have ha : ∀ u : State, u.CarriersOk → (u.afterStop c (before c) w f).CarriersOk := by
    intro u hu
    unfold State.afterStop
    repeat' split
    all_goals first
      | exact hu
      | exact hu.afterEnd c
      | exact hu.decideHead c _
  unfold State.stopChannel
  split
  · exact h
  · refine ha _ ?_
    split
    exacts [hj.dropAll c _, hj]

theorem State.CarriersOk.expireWindow (h : s.CarriersOk) : (s.expireWindow c).CarriersOk := by
  unfold State.expireWindow
  split
  exacts [h, h.dropAndDecide c _ _]

theorem State.CarriersOk.evict (h : s.CarriersOk) (o : JobOutcome) (r : DropReason) (x : ChState) : (s.evict c o r x).CarriersOk :=
  ((h.endJob c o).dropAll c r).congr rfl

theorem State.CarriersOk.shutGate (h : s.CarriersOk) : (s.shutGate c).CarriersOk :=
  (h.leaveWaitList c).congr rfl

end CarbWork

/-! ### The generators and the wait list: the parts of a step -/

section CarbStep

variable {s t : State}

/-- What every step of a fold keeps is kept by the fold. -/
theorem foldl_keeps {α : Type} {P : State → Prop} {f : State → α → State} (h : ∀ u x, P u → P (f u x)) (xs : List α) {s : State}
    (hs : P s) : P (xs.foldl f s) := by
  induction xs generalizing s with
  | nil => exact hs
  | cons x xs ih => exact ih (h s x hs)

theorem State.CarriersOk.forEach {α : Type} (h : s.CarriersOk) (xs : List α) {f : α → State → State}
    (hf : ∀ u x, u.CarriersOk → (f x u).CarriersOk) : (s.forEach xs f).CarriersOk := by
  refine foldl_keeps (f := fun u x => f x u) hf _ ?_
  rcases s.ordered_snd xs with e | e <;> rw [e]
  exacts [h, h.congr rfl]

theorem State.CarriersOk.evictAll (h : s.CarriersOk) (cs : List Chan) (o : JobOutcome) (r : DropReason) (x : ChState) :
    (s.evictAll cs o r x).CarriersOk := by
  have hs : (cs.foldl State.shutGate s).CarriersOk := foldl_keeps (fun u c hu => hu.shutGate c) cs h
  have hc : (s.forceClose cs).CarriersOk := hs.forEach _ fun u g hu => hu.lastUserLeft g
  exact hc.forEach _ fun u c hu => hu.evict c o r x

theorem State.CarriersOk.cycleEnd (h : s.CarriersOk) (g : GenId) : (s.cycleEnd g).CarriersOk := by
  unfold State.cycleEnd
  split
  · exact h
  · exact h.releaseGen g
  · next hg => exact (h.setGen g (by rw [hg]; rfl)).forEach _ fun u c hu => hu.cycleEndUser c g

theorem State.CarriersOk.sampleLines (h : s.CarriersOk) (levels : BitVec 8) : (s.sampleLines levels).CarriersOk := by
  unfold State.sampleLines
  refine State.CarriersOk.forEach ?_ _ fun u c hu => hu.startHead c
  refine foldl_keeps (fun u e hu => ?_) _ (h.congr rfl)
  unfold State.reportEdge
  split
  exacts [hu.congr rfl, hu]

theorem State.CarriersOk.executed (h : s.CarriersOk) (e : Executed s t) : t.CarriersOk := by
  cases e with
  | classCleared k =>
    exact foldl_keeps (f := fun t c => t.finishJob c .noCarrierClass) (fun u c hu => hu.finishJob c _) _
      (show (s.setClass k none).CarriersOk from ⟨h.distinct, h.waiting, h.served⟩)
  | evicted cs => exact h.evictAll cs _ _ _
  | accepted c j => exact State.CarriersOk.playEffect (s := s.enqueue c _) c (h.congr rfl) _
  | cancelled c j => exact h.dropAndDecide c j _
  | stopped cs hn w f =>
    have hw : (s.withdrawWaiters cs).CarriersOk := foldl_keeps (fun u c hu => hu.leaveWaitList c) _ h
    exact hw.forEach _ fun u c hu => hu.stopChannel c s.chan w f
  | held cs => exact h.forEach _ fun u c hu => hu.holdChannel c
  | resumed cs => exact h.forEach _ fun u c hu => hu.resumeChannel c
  | started cs => exact h.forEach _ fun u c hu => hu.startHead c
  | classSet k x => exact ⟨h.distinct, h.waiting, h.served⟩
  | _ => exact h.congr rfl

@[simp] theorem Gen.endHigh_cls (x : Gen) : x.endHigh.cls = x.cls := by
  cases x <;> rfl

@[simp] theorem Gen.tick_cls (x : Gen) : x.tick.cls = x.cls := by
  cases x <;> rfl

@[simp] theorem State.gen_advance (s : State) (g : GenId) : s.advance.gen g = (s.gen g).tick := by
  simp [State.advance, State.gen]

theorem State.CarriersOk.tick (h : s.CarriersOk) : s.tick.CarriersOk := by
  obtain ⟨n, q, e⟩ := s.tick_eq
  rw [e]
  refine State.CarriersOk.congr (s := s.advance) ?_ rfl
  have hf : ∀ y : Gen, y.tick = .free ↔ y = .free := fun y => by cases y <;> simp [Gen.tick]
  obtain ⟨h1, h2, h3⟩ := h
  constructor <;> simp only [State.gen_advance, Gen.tick_cls, ne_eq, hf] <;> assumption

theorem State.CarriersOk.of_free (hg : ∀ g, s.gen g = .free) (hw : s.carb.waitList = []) : s.CarriersOk where
  distinct i j k hi := by simp [hg, Gen.cls] at hi
  waiting := by simp [hw]
  served h := absurd hw h

theorem kept_carriersOk : Kept State.CarriersOk where
  link _ _ h := h.congr rfl
  pending _ _ h := h.congr rfl
  renew _ h := h.congr rfl
  settle s h := h.congr (by simp)
  owner r tag s h := h.executed (owner_executed s r tag)
  resetOutputs s h := .of_free (by simp) (by simp)
  hardReset a r x s _ := .of_free (by simp [State.hardReset, State.afterReset, State.gen, Carriers.reset]) rfl
  abandonLoad s _ h := by
    unfold State.abandonLoad
    repeat' split
    all_goals exact h.congr rfl
  expireWindow s c _ h := h.expireWindow c
  stepEnd s c _ h := h.stepEnd c
  cycleEnd s g _ h := h.cycleEnd g
  expireWait s c _ h := h.finishJob c _
  readback s c o _ h := by
    unfold State.readback
    split
    exacts [h.congr rfl, h.evict c _ _ _]
  sample s l h := h.sampleLines l
  holdAge _ h := h.congr rfl
  expireLease s _ h := by
    refine State.CarriersOk.congr (State.CarriersOk.evictAll (s := { s with lease := { s.lease with state := .expired } }) ?_ _ _ _ _) rfl
    exact h.congr rfl
  endHigh s g h := h.setGen g (Gen.endHigh_cls _)
  tick _ h := h.tick

end CarbStep

/-- Settles O58: three invariants, each kept by itself. -/
theorem stepKeepsTables : Obligations.StepKeepsTables :=
  fun s t e => ⟨fun h => kept_ptabOk.step s t h e, fun h => kept_classesOk.step s t h e, fun h => kept_carriersOk.step s t h e⟩

end Sys2Proof.Machine
end

section
/-! PROOFS. What the operations that many events share do exactly: giving up what a channel holds at CARB (R87, R88, R92), the end of a job
(R60, R61), the dropping of queued jobs (R40), and the number of jobs that name a pattern (R8). -/

namespace Sys2Proof.Machine

variable {s t : State} {c d : Chan}

/-! ### What a channel holds at CARB -/

theorem State.leaveWaitList_waitList (s : State) (c : Chan) :
    (s.leaveWaitList c).carb.waitList = s.carb.waitList.filter fun w => w.chan ≠ c := rfl

@[simp] theorem State.gen_leaveWaitList (s : State) (c : Chan) (g : GenId) : (s.leaveWaitList c).gen g = s.gen g := rfl

@[simp] theorem State.ptab_leaveWaitList (s : State) (c : Chan) : (s.leaveWaitList c).ptab = s.ptab := rfl

@[simp] theorem State.chan_leaveWaitList (s : State) (c d : Chan) :
    (s.leaveWaitList c).chan d = if d = c then { s.chan d with waitTimer := none } else s.chan d :=
  (State.chan_modChan _ c d _).trans rfl

theorem State.detach_of_unattached (h : (s.chan c).attachment = none) : s.detach c = s := by
  simp only [State.detach, h]

/-- The users of a generator are the channels whose attachment names it. -/
theorem State.mem_users {g : GenId} : c ∈ s.users g ↔ (s.chan c).attachment.map Attachment.gen = some g := by
  simp only [State.users, chansWith, List.mem_filter, List.mem_finRange, true_and, State.uses]
  cases (s.chan c).attachment <;> simp

/-- The users depend on the generators that the attachments name. -/
theorem State.users_congr {g : GenId}
    (h : ∀ d, (t.chan d).attachment.map Attachment.gen = some g ↔ (s.chan d).attachment.map Attachment.gen = some g) :
    t.users g = s.users g := by
  unfold State.users chansWith
  refine List.filter_congr fun d _ => ?_
  have hu : ∀ u : State, u.uses d g = decide ((u.chan d).attachment.map Attachment.gen = some g) := fun u => by
    unfold State.uses
    cases (u.chan d).attachment <;> simp
  rw [hu, hu]
  simp only [h d]

theorem State.users_eq_nil {g : GenId} :
    s.users g = [] ↔ ∀ d, (s.chan d).attachment.map Attachment.gen ≠ some g := by
  simp only [List.eq_nil_iff_forall_not_mem, State.mem_users, ne_eq]

/-- A grant changes a channel only if a place of its own is on the wait list. -/
theorem State.chan_releaseGen_of_absent (g : GenId) (h : ∀ w ∈ s.carb.waitList, w.chan ≠ c) :
    (s.releaseGen g).chan c = s.chan c := by
  unfold State.releaseGen
  cases hw : s.carb.waitList with
  | nil => rw [State.grant_of_nobody (s := s.setGen g .free) hw]; rfl
  | cons w rest =>
    obtain ⟨-, -, -, -, -, hc⟩ := State.grant_of_waiter (s := s.setGen g .free) (g := g) hw
    exact hc c fun y hy _ => h y hy

theorem State.chan_lastUserLeft_of_absent (g : GenId) (h : ∀ w ∈ s.carb.waitList, w.chan ≠ c) :
    (s.lastUserLeft g).chan c = s.chan c := by
  unfold State.lastUserLeft
  repeat' split
  all_goals first
    | exact State.chan_releaseGen_of_absent g h
    | rfl

theorem State.ptab_releaseGen (s : State) (g : GenId) : (s.releaseGen g).ptab = s.ptab := by
  have h : ∀ (cs : List Chan) (u : State), (cs.foldl (fun s c => s.modChan c (Channel.granted g)) u).ptab = u.ptab := by
    intro cs
    induction cs with
    | nil => exact fun u => rfl
    | cons d cs ih => exact fun u => ih _
  unfold State.releaseGen State.grant
  split
  · rfl
  · exact h _ _

theorem State.outbox_releaseGen (s : State) (g : GenId) : (s.releaseGen g).outbox = s.outbox := by
  have h : ∀ (cs : List Chan) (u : State), (cs.foldl (fun s c => s.modChan c (Channel.granted g)) u).outbox = u.outbox := by
    intro cs
    induction cs with
    | nil => exact fun u => rfl
    | cons d cs ih => exact fun u => ih _
  unfold State.releaseGen State.grant
  split
  · rfl
  · exact h _ _

@[simp] theorem State.ptab_lastUserLeft (s : State) (g : GenId) : (s.lastUserLeft g).ptab = s.ptab := by
  unfold State.lastUserLeft
  repeat' split
  all_goals first
    | exact State.ptab_releaseGen s g
    | rfl

@[simp] theorem State.outbox_lastUserLeft (s : State) (g : GenId) : (s.lastUserLeft g).outbox = s.outbox := by
  unfold State.lastUserLeft
  repeat' split
  all_goals first
    | exact State.outbox_releaseGen s g
    | rfl

/-- A channel whose gate has closed (R87). -/
def Channel.unattached (ch : Channel) : Channel :=
  { ch with active := ch.active.map fun a => { a with attach := none } }

@[simp] theorem Channel.unattached_attachment (ch : Channel) : ch.unattached.attachment = none := by
  unfold Channel.unattached Channel.attachment
  cases ch.active <;> rfl

theorem Channel.unattached_of_none {ch : Channel} (h : ch.attachment = none) : ch.unattached = ch := by
  unfold Channel.attachment at h
  unfold Channel.unattached
  cases ha : ch.active with
  | none => cases ch; cases ha; rfl
  | some a =>
    have hn : a.attach = none := by simpa [ha] using h
    have hid : ({ a with attach := none } : Active) = a := by rw [← hn]
    rw [Option.map_some, hid, ← ha]

/-- A channel that has no place on the wait list detaches, and is granted nothing by it. -/
theorem State.chan_detach_same (h : ∀ w ∈ s.carb.waitList, w.chan ≠ c) : (s.detach c).chan c = (s.chan c).unattached := by
  unfold State.detach
  split
  next ha => exact (Channel.unattached_of_none ha).symm
  next =>
    have e : ∀ f, (s.modActive c f).chan c = { s.chan c with active := (s.chan c).active.map f } := fun f => by simp
    dsimp only
    split
    · rw [State.chan_lastUserLeft_of_absent _ (by exact h), e]
      rfl
    · exact e _

@[simp] theorem State.ptab_detach (s : State) (c : Chan) : (s.detach c).ptab = s.ptab := by
  unfold State.detach
  split
  · rfl
  · dsimp only
    split
    exacts [State.ptab_lastUserLeft _ _, rfl]

@[simp] theorem State.outbox_detach (s : State) (c : Chan) : (s.detach c).outbox = s.outbox := by
  unfold State.detach
  split
  · rfl
  · dsimp only
    split
    exacts [State.outbox_lastUserLeft _ _, rfl]

@[simp] theorem State.ptab_giveUpCarrier (s : State) (c : Chan) : (s.giveUpCarrier c).ptab = s.ptab :=
  (State.ptab_detach _ c).trans rfl

@[simp] theorem State.outbox_giveUpCarrier (s : State) (c : Chan) : (s.giveUpCarrier c).outbox = s.outbox :=
  (State.outbox_detach _ c).trans rfl

/-- Whatever a channel has given up at CARB, its record has no attachment and no wait timer (R92). -/
theorem State.chan_giveUpCarrier_same (s : State) (c : Chan) :
    (s.giveUpCarrier c).chan c = ({ s.chan c with waitTimer := none } : Channel).unattached := by
  unfold State.giveUpCarrier
  rw [State.chan_detach_same, State.chan_leaveWaitList, if_pos rfl]
  intro w hw
  simpa using (List.mem_filter.1 hw).2

/-- A channel without an attachment gives up its place on the wait list alone. -/
theorem State.giveUpCarrier_of_unattached (h : (s.chan c).attachment = none) : s.giveUpCarrier c = s.leaveWaitList c :=
  State.detach_of_unattached (by rw [State.chan_leaveWaitList, if_pos rfl]; exact h)

/-! ### The end of a job (R60, R61) -/

/-- A channel whose active job has ended. -/
def Channel.ended (ch : Channel) : Channel :=
  { ch with active := none, holdRequest := false, waitTimer := none }

/-- The ENDED report of a job, where one is made (R61). -/
def endedReports (s : State) (c : Chan) (a : Active) (o : JobOutcome) : List (Producer × Report) :=
  if endReported a.job o then [(.channel c, ⟨.ended, s.rpt.partTime, some c, a.job.number, byteOf a.job.pattern.val, o.byte⟩)]
  else []

section EndJob

variable {a : Active} (o : JobOutcome) (ha : (s.chan c).active = some a)

include ha

/-- The end of a job, with the report set apart. -/
theorem State.endJob_eq : s.endJob c o
    = { ((s.giveUpCarrier c).modChan c fun ch => { ch with active := none, holdRequest := false }).dropRef a.job.pattern with
        outbox := s.outbox ++ endedReports s c a o } := by
  have ho : (((s.giveUpCarrier c).modChan c fun ch => { ch with active := none, holdRequest := false }).dropRef
      a.job.pattern).outbox = s.outbox := s.outbox_giveUpCarrier c
  have hr : (s.giveUpCarrier c).rpt = s.rpt := (works_giveUpCarrier c s).rpt
  simp only [State.endJob, ha, endedReports]
  split
  · simp only [State.jobReport, State.report, ho]
    simp only [State.dropRef, State.setEntry, State.modChan, State.setChan, hr]
  · rw [List.append_nil, ← ho]

theorem State.chan_endJob_same : (s.endJob c o).chan c = (s.chan c).ended := by
  rw [State.endJob_eq o ha]
  change ((s.giveUpCarrier c).modChan c fun ch => { ch with active := none, holdRequest := false }).chan c = _
  rw [State.chan_modChan, if_pos rfl, State.chan_giveUpCarrier_same]
  rfl

theorem State.chan_endJob_other (h : d ≠ c) : (s.endJob c o).chan d = (s.giveUpCarrier c).chan d := by
  rw [State.endJob_eq o ha]
  change ((s.giveUpCarrier c).modChan c fun ch => { ch with active := none, holdRequest := false }).chan d = _
  rw [State.chan_modChan, if_neg h]

theorem State.carb_endJob : (s.endJob c o).carb = (s.giveUpCarrier c).carb := by
  rw [State.endJob_eq o ha]
  rfl

theorem State.outbox_endJob : (s.endJob c o).outbox = s.outbox ++ endedReports s c a o := by
  rw [State.endJob_eq o ha]

theorem State.ptab_endJob : (s.endJob c o).ptab = (s.dropRef a.job.pattern).ptab := by
  rw [State.endJob_eq o ha]
  simp only [State.dropRef, State.setEntry, State.entry, State.modChan_ptab, State.ptab_giveUpCarrier]

end EndJob

/-- A job ends on a channel that CARB holds nothing for: no other channel and nothing at CARB changes. -/
theorem State.endJob_of_unattached {a : Active} (o : JobOutcome) (ha : (s.chan c).active = some a) (hn : a.attach = none) :
    (s.endJob c o).carb = { s.carb with waitList := s.carb.waitList.filter fun w => w.chan ≠ c } ∧
      ∀ d, d ≠ c → (s.endJob c o).chan d = s.chan d := by
  have hu : (s.chan c).attachment = none := by simp [Channel.attachment, ha, hn]
  refine ⟨by rw [State.carb_endJob o ha, State.giveUpCarrier_of_unattached hu]; rfl, fun d hd => ?_⟩
  rw [State.chan_endJob_other o ha hd, State.giveUpCarrier_of_unattached hu, State.chan_leaveWaitList, if_neg hd]

/-! ### The dropping of queued jobs (R40) -/

/-- The DROPPED report of a job (R40). -/
def droppedReport (s : State) (c : Chan) (r : DropReason) (j : Job) : Producer × Report :=
  (.channel c, ⟨.dropped, s.rpt.partTime, some c, j.number, byteOf j.pattern.val, r.code⟩)

section Drop

variable (j : Job) (r : DropReason)

@[simp] theorem State.chan_dropJob (s : State) (c d : Chan) :
    (s.dropJob c j r).chan d = if d = c then (s.chan d).withoutJob j.number else s.chan d :=
  State.chan_modChan s c d _

@[simp] theorem State.carb_dropJob (s : State) (c : Chan) : (s.dropJob c j r).carb = s.carb := rfl

@[simp] theorem State.ptab_dropJob (s : State) (c : Chan) : (s.dropJob c j r).ptab = (s.dropRef j.pattern).ptab := rfl

@[simp] theorem State.outbox_dropJob (s : State) (c : Chan) : (s.dropJob c j r).outbox = s.outbox ++ [droppedReport s c r j] := rfl

end Drop

/-- A head is dropped from a queue. -/
theorem Channel.withoutJob_head {ch : Channel} {j : Job} {rest : List Job} (h : ch.queue = j :: rest) :
    (ch.withoutJob j.number).queue = rest := by
  simp [Channel.withoutJob, dropFromQueue, h]

/-- All queued jobs are dropped from the head on: what the channel holds then, and the reports. -/
theorem State.dropAll_eq (s : State) (c : Chan) (r : DropReason) :
    (∃ armed, (s.dropAll c r).chan c = { s.chan c with queue := [], armed := armed }) ∧
      (∀ d, d ≠ c → (s.dropAll c r).chan d = s.chan d) ∧ (s.dropAll c r).carb = s.carb ∧
      (s.dropAll c r).ptab = ((s.chan c).queue.foldl (fun u j => u.dropRef j.pattern) s).ptab ∧
      (s.dropAll c r).outbox = s.outbox ++ (s.chan c).queue.map (droppedReport s c r) := by
  have main : ∀ (q : List Job) (u v : State), (u.chan c).queue = q → v.ptab = u.ptab →
      let t := q.foldl (fun w j => w.dropJob c j r) u
      (∃ armed, t.chan c = { u.chan c with queue := [], armed := armed }) ∧ (∀ d, d ≠ c → t.chan d = u.chan d) ∧
        t.carb = u.carb ∧ t.ptab = (q.foldl (fun w j => w.dropRef j.pattern) v).ptab ∧
        t.outbox = u.outbox ++ q.map (droppedReport u c r) := by
    intro q
    induction q with
    | nil =>
      intro u v hq hv
      refine ⟨⟨(u.chan c).armed, ?_⟩, fun _ _ => rfl, rfl, hv.symm, by simp⟩
      change u.chan c = { u.chan c with queue := [], armed := (u.chan c).armed }
      rw [← hq]
    | cons j q ih =>
      intro u v hq hv
      have hp : (v.dropRef j.pattern).ptab = (u.dropJob c j r).ptab := by
        simp only [State.ptab_dropJob, State.dropRef, State.setEntry, State.entry, hv]
      obtain ⟨⟨armed, h1⟩, h2, h3, h4, h5⟩ :=
        ih (u.dropJob c j r) (v.dropRef j.pattern) (by simpa using Channel.withoutJob_head hq) hp
      refine ⟨⟨armed, ?_⟩, fun d hd => ?_, h3, h4, ?_⟩
      · rw [List.foldl_cons, h1, State.chan_dropJob, if_pos rfl]
        rfl
      · rw [List.foldl_cons, h2 d hd, State.chan_dropJob, if_neg hd]
      · rw [List.foldl_cons, h5, State.outbox_dropJob, List.map_cons, List.append_assoc]
        rfl
  exact main _ s s rfl rfl

/-! ### The number of jobs that name a pattern (R8) -/

/-- The jobs that name a pattern, as a sum over the channels. -/
theorem State.naming_eq_sum (s : State) (p : PatId) : s.naming p = ∑ c, (s.chan c).naming p :=
  (List.sum_ofFn (f := fun c => (s.chan c).naming p)).symm.trans (by rw [List.ofFn_eq_map]; rfl) |>.symm

/-- Where one channel has changed, so has the number of jobs that name a pattern, by as many. -/
theorem State.naming_update (h : ∀ d, d ≠ c → t.chan d = s.chan d) (p : PatId) :
    t.naming p + (s.chan c).naming p = s.naming p + (t.chan c).naming p := by
  have e : ∑ d ∈ Finset.univ.erase c, (t.chan d).naming p = ∑ d ∈ Finset.univ.erase c, (s.chan d).naming p :=
    Finset.sum_congr rfl fun d hd => by rw [h d (Finset.ne_of_mem_erase hd)]
  rw [State.naming_eq_sum, State.naming_eq_sum, ← Finset.add_sum_erase _ _ (Finset.mem_univ c),
    ← Finset.add_sum_erase _ (fun d => (s.chan d).naming p) (Finset.mem_univ c), e]
  omega

theorem State.naming_congr (h : ∀ d, (t.chan d).naming = (s.chan d).naming) (p : PatId) : t.naming p = s.naming p := by
  simp only [State.naming, h]

theorem Channel.naming_of_nobody {ch : Channel} (ha : ch.active = none) (hq : ch.queue = []) (p : PatId) : ch.naming p = 0 := by
  simp [Channel.naming, ha, hq]

/-- The jobs of a channel, by its active job and its queue. -/
theorem Channel.naming_congr {ch ch' : Channel}
    (ha : ch'.active.map (fun a => a.job.pattern) = ch.active.map fun a => a.job.pattern) (hq : ch'.queue.Perm ch.queue) :
    ch'.naming = ch.naming := by
  funext p
  rw [Channel.naming, Channel.naming, ha, hq.countP_eq]

/-- A job joins a queue. -/
theorem Channel.naming_queue_cons {ch : Channel} {j : Job} {q : List Job} (h : ch.queue.Perm (j :: q)) (p : PatId) :
    ch.naming p = { ch with queue := q }.naming p + if p = j.pattern then 1 else 0 := by
  simp only [Channel.naming, h.countP_eq, List.countP_cons, decide_eq_true_eq, eq_comm (a := p)]
  omega

@[simp] theorem Channel.granted_naming (g : GenId) (ch : Channel) : (ch.granted g).naming = ch.naming := by
  refine Channel.naming_congr ?_ (by rw [Channel.granted_queue])
  unfold Channel.granted
  split
  · cases ch.active <;> rfl
  · rfl

/-! ### The reference counts (R8) -/

/-- One job fewer names a pattern, and its reference is given up. -/
theorem State.RefsOk.drop {p : PatId} (h : s.RefsOk) (hc : ∀ d, d ≠ c → t.chan d = s.chan d)
    (hn : ∀ q, (s.chan c).naming q = (t.chan c).naming q + if q = p then 1 else 0)
    (he : ∀ q, t.entry q = if q = p then (s.entry q).dropRef else s.entry q) : t.RefsOk := by
  intro q
  have hq := State.naming_update hc q
  have hs := h q
  have := hn q
  rw [he]
  split
  · next e =>
    have hr : (s.entry q).dropRef.refs = (s.entry q).refs - 1 := by cases s.entry q <;> rfl
    simp only [e, if_true] at this hq hs hr ⊢
    omega
  · next e =>
    simp only [e, if_false] at this
    omega

/-- One job more names a READY pattern, and takes a reference. -/
theorem State.RefsOk.add {p : PatId} (h : s.RefsOk) (hc : ∀ d, d ≠ c → t.chan d = s.chan d)
    (hn : ∀ q, (t.chan c).naming q = (s.chan c).naming q + if q = p then 1 else 0) (hp : (s.entry p).isReady = true)
    (he : ∀ q, t.entry q = if q = p then (s.entry q).addRef else s.entry q) : t.RefsOk := by
  intro q
  have hq := State.naming_update hc q
  have hs := h q
  have := hn q
  rw [he]
  split
  · next e =>
    subst e
    have hr : (s.entry q).addRef.refs = (s.entry q).refs + 1 := by
      cases hx : s.entry q <;> rw [hx] at hp <;> first | rfl | cases hp
    simp only [if_true] at this
    omega
  · next e =>
    simp only [e, if_false] at this
    omega

theorem State.RefsOk.congr (h : s.RefsOk) (hn : ∀ d, (t.chan d).naming = (s.chan d).naming)
    (he : ∀ q, (t.entry q).refs = (s.entry q).refs) : t.RefsOk :=
  fun q => by rw [he, h q, State.naming_congr hn]

theorem State.RefsOk.same (h : s.RefsOk) (hc : ∀ d, d ≠ c → t.chan d = s.chan d) (hn : (t.chan c).naming = (s.chan c).naming)
    (he : t.ptab = s.ptab) : t.RefsOk :=
  h.congr (fun d => by by_cases e : d = c; exacts [e ▸ hn, by rw [hc d e]]) fun q => by rw [State.entry_congr he]

theorem State.entry_dropRef (s : State) (p q : PatId) :
    (s.dropRef p).entry q = if q = p then (s.entry q).dropRef else s.entry q := by
  rw [State.dropRef, State.entry_setEntry]
  split
  · next e => rw [e]
  · rfl

theorem State.entry_addRef (s : State) (p q : PatId) :
    (s.addRef p).entry q = if q = p then (s.entry q).addRef else s.entry q := by
  rw [State.addRef, State.entry_setEntry]
  split
  · next e => rw [e]
  · rfl

end Sys2Proof.Machine
end

section
/-! PROOFS. What the end of an event leaves as it was, said once for every block: the statements about the commands and the events name
the blocks that change, and these lemmas say that no other does. -/

namespace Sys2Proof.Machine

variable {s t u : State} {i : Instr} {v : Via} {r : Request}

/-! ### The reports of an event (R128) -/

theorem oneProducer_of_forall {p : Producer} {xs : List (Producer × Report)} (h : ∀ x ∈ xs, x.1 = p) : oneProducer xs = true := by
  cases xs with
  | nil => rfl
  | cons x xs =>
    simp only [oneProducer, List.all_eq_true, beq_iff_eq]
    exact fun y hy => (h y (List.mem_cons_of_mem _ hy)).trans (h x List.mem_cons_self).symm

/-- The reports of one producer are taken in the order in which they were made. -/
theorem State.settle_rpt (h : oneProducer u.outbox = true) : u.settle.rpt = u.rpt.taking (u.outbox.map (·.2)) := by
  simp [State.settle, State.decideAttention, State.driveLines, State.flushReports, State.takenReports, h, ReportUnit.taking]

theorem State.settle_choices (h : oneProducer u.outbox = true) : u.settle.choices = u.choices := by
  simp [State.settle, State.decideAttention, State.driveLines, State.flushReports, State.takenReports, h]

theorem State.Settled.taking_nil (hs : s.Settled) : s.rpt.taking [] = s.rpt := by
  simp only [ReportUnit.taking, List.foldl_nil, ← hs.attention]

/-! ### What an event keeps -/

/-- In a settled state an event changes no block but those that its work has written, the lines if it moves a level (R100), RPT if it makes
a report, and the count of free orders if reports of several producers are to be merged (R128). -/
theorem State.Settled.keepsAllBut (hs : s.Settled) {changed : List Block} (hclock : u.clock = s.clock) (hpending : u.pending = s.pending)
    (hblocks : ∀ b, b ∉ changed → b ≠ .outputs → b ≠ .reports → b ≠ .choices → b.same s u)
    (houts : .outputs ∉ changed → ∀ c, u.drivenLevel c = s.drivenLevel c)
    (hrpt : .reports ∉ changed → u.rpt = s.rpt ∧ u.outbox = [])
    (hchoices : .choices ∉ changed → u.choices = s.choices ∧ oneProducer u.outbox = true) : s.KeepsAllBut u.settle changed := by
  refine ⟨fun b hb => ?_, u.settle_clock.trans hclock, u.settle_pending.trans hpending⟩
  cases b with
  | outputs => exact hs.settle_outs_of_levels (houts hb)
  | reports => exact hs.settle_rpt (hrpt hb).2 (hrpt hb).1
  | choices => exact (State.settle_choices (hchoices hb).2).trans (hchoices hb).1
  | patterns => exact u.settle_ptab.trans (hblocks .patterns hb (by simp) (by simp) (by simp))
  | channels => exact u.settle_chans.trans (hblocks .channels hb (by simp) (by simp) (by simp))
  | jobCounter => exact u.settle_nextJob.trans (hblocks .jobCounter hb (by simp) (by simp) (by simp))
  | carriers => exact u.settle_carb.trans (hblocks .carriers hb (by simp) (by simp) (by simp))
  | sense => exact u.settle_sense.trans (hblocks .sense hb (by simp) (by simp) (by simp))
  | lease => exact u.settle_lease.trans (hblocks .lease hb (by simp) (by simp) (by simp))
  | link => exact u.settle_link.trans (hblocks .link hb (by simp) (by simp) (by simp))

/-- What changes in no block but some changes in none but these and more. -/
theorem State.KeepsAllBut.mono {changed more : List Block} (h : s.KeepsAllBut t changed) (hm : changed ⊆ more) : s.KeepsAllBut t more :=
  ⟨fun b hb => h.1 b fun hc => hb (hm hc), h.2⟩

/-! ### Commands and events -/

theorem exec_next (hi : i.request = some (v, r)) (hr : r.Fits) (h : s.Executes v r) : ∃ t, exec i s = .next t :=
  ⟨_, exec_of_executes hi hr h⟩

/-- The one next state of a command that the owning block answers OK: the end of the event on what the block has written, with the
reply. -/
theorem answered_of_exec (hi : i.request = some (v, r)) (hr : r.Fits) (h : s.Executes v r) (ht : exec i s = .next t)
    {fields : List Byte} (ho : owner r v.tag s = answerOk u fields) (hl : u.link = s.link) :
    t = { u.settle with link := s.link.answering v r (statusOk :: fields) none } ∧
      ∀ changed, s.KeepsAllBut u.settle (.link :: changed) → s.Answered t v r fields changed := by
  refine ⟨?_, fun changed hk => ?_⟩
  · have hlink : u.settle.link = s.link := u.settle_link.trans hl
    obtain rfl : _ = t := Host.Outcome.next.inj ((exec_of_executes hi hr h).symm.trans ht)
    rw [ho, State.settle_reply, ← reply_link hlink]
    rfl
  · obtain ⟨t', ht', ha, -⟩ := exec_answered hi hr h ho hl hk
    cases ht.symm.trans ht'
    exact ha

/-- An event at its moment and at any other (log 7). -/
theorem runEvent_next (due : Bool) (f : State → State) (s : State) :
    ∃ t, runEvent due f s = .next t ∧ (due = false → t = s) ∧ (due = true → t = (f s).settle) := by
  refine ⟨_, rfl, fun h => ?_, fun h => ?_⟩ <;> simp [h]

end Sys2Proof.Machine
end

section
/-! PROOFS. PAT_OPEN, PAT_STEPS, PAT_DELETE, PAT_INFO, PAT_READ and the expiry of the load timer (R11 to R13, R16, R18 to R20): what PTAB
answers, clause by clause, and the statements. -/

namespace Sys2Proof.Machine

variable {s t : State} {i : Instr} {v : Via} {r : Request}

/-- A command that the owning block answers OK without writing anything changes LINK alone. -/
theorem answered_unchanged (hs : s.Settled) (hi : i.request = some (v, r)) (hr : r.Fits) (h : s.Executes v r) (ht : exec i s = .next t)
    {fields : List Byte} (ho : owner r v.tag s = answerOk s fields) : s.Answered t v r fields [] := by
  refine (answered_of_exec hi hr h ht ho rfl).2 [] ?_
  rw [s.settle_of_settled hs]
  exact ⟨fun b _ => by cases b <;> rfl, rfl, rfl⟩

/-! ### The step pool (R3) -/

/-- What an entry has reserved is part of what all have. -/
theorem State.reserved_le (s : State) (p : PatId) : (s.entry p).reserved ≤ s.ptab.reservedSteps := by
  have := s.reservedSteps_setEntry p .free
  rw [Entry.reserved_free] at this
  omega

/-- The free steps after an entry has been written for which there is room. -/
theorem State.freeSteps_setEntry (hp : s.ptab.reservedSteps ≤ Config.poolSteps) {p : PatId} {e : Entry} {n : Nat} (hn : e.reserved = n)
    (hr : n ≤ s.ptab.freeSteps + (s.entry p).reserved) :
    (s.setEntry p e).ptab.freeSteps = s.ptab.freeSteps + (s.entry p).reserved - n := by
  have hw := s.reservedSteps_setEntry p e
  have hl := s.reserved_le p
  simp only [PatternTable.freeSteps] at hr ⊢
  omega

/-! ### PAT_OPEN (R11) -/

section Open

variable {p : OpenFields} {id : PatId} {h : Header} (hp : p.Spells id h)

theorem State.otherLoad_iff : s.otherLoad id = true ↔ ∃ l, s.ptab.load = some l ∧ l.id ≠ id := by
  unfold State.otherLoad
  cases s.ptab.load <;> simp

theorem Entry.inUse_iff {e : Entry} : e.inUse = true ↔ ∃ h steps n, e = .ready h steps (n + 1) := by
  cases e with
  | free | loading => simp [Entry.inUse]
  | ready h steps refs => cases refs <;> simp [Entry.inUse]

/-- An entry that no job names counts none. -/
theorem Entry.refs_of_not_inUse {e : Entry} (h : ¬e.inUse = true) : e.refs = 0 := by
  cases e with
  | free | loading => rfl
  | ready _ _ refs => exact Nat.eq_zero_of_not_pos fun hr => h (decide_eq_true hr)

include hp

theorem ownerPatOpen_loadPending (ho : s.otherLoad id = true) : ownerPatOpen p s = refuse s .loadPending := by
  simp only [ownerPatOpen, hp.openHeader?, ho, if_true]

variable (ho : ¬s.otherLoad id = true)

include ho

theorem ownerPatOpen_inUse (hu : (s.entry id).inUse = true) : ownerPatOpen p s = refuse s .inUse := by
  simp only [ownerPatOpen, hp.openHeader?, if_neg ho, hu, if_true]

variable (hu : ¬(s.entry id).inUse = true)

include hu

theorem ownerPatOpen_noRoom (hr : s.ptab.freeSteps + (s.entry id).reserved < h.count) : ownerPatOpen p s = refuse s .noRoom := by
  simp only [ownerPatOpen, hp.openHeader?, if_neg ho, if_neg hu, if_pos hr]

theorem ownerPatOpen_opens (hr : h.count ≤ s.ptab.freeSteps + (s.entry id).reserved) : ownerPatOpen p s =
    answerOk ((s.setEntry id (.loading h [])).startLoad id) ((s.setEntry id (.loading h [])).startLoad id).freeStepsBytes := by
  simp only [ownerPatOpen, hp.openHeader?, if_neg ho, if_neg hu, if_neg hr.not_gt]

end Open

/-- Settles O5: the three checks of R11 in their order; the entry that is written was named by no job, so no line moves. -/
theorem patOpenDecides : Obligations.PatOpenDecides := by
  intro s v p id h hs hrefs hok hx hp
  have hi : Instr.request (.patOpen v p) = some (v, .patOpen p) := rfl
  have hr : Request.Fits (.patOpen p) := trivial
  obtain ⟨t, ht⟩ := exec_next hi hr hx
  refine ⟨t, ht, ?_⟩
  simp only [← State.otherLoad_iff, ← Entry.inUse_iff]
  refine ⟨fun ho => refused_of_exec hs hi hr hx ht (ownerPatOpen_loadPending hp ho),
    fun ho hu => refused_of_exec hs hi hr hx ht (ownerPatOpen_inUse hp ho hu),
    fun ho hu hn => refused_of_exec hs hi hr hx ht (ownerPatOpen_noRoom hp ho hu hn), fun ho hu hroom => ?_⟩
  have hfree : (s.setEntry id (.loading h [])).ptab.freeSteps = s.ptab.freeSteps + (s.entry id).reserved - h.count :=
    State.freeSteps_setEntry hok.pool rfl hroom
  have hother (q : PatId) (hq : q ≠ id) : (s.setEntry id (.loading h [])).entry q = s.entry q := by simp [hq]
  obtain ⟨ha, hptab⟩ := answered_of_exec_patterns hs hi hr hx ht (ownerPatOpen_opens hp ho hu hroom) rfl
    (State.currentStep_of_unnamed hother (hrefs.naming_eq_zero (Entry.refs_of_not_inUse hu)))
  refine ⟨?_, ?_, fun q hq => ?_, by rw [hptab]; rfl, by rw [hptab]; exact hfree⟩
  · rw [← hfree]
    exact ha
  · exact (State.entry_congr hptab id).trans (by simp [State.entry, State.startLoad, State.setEntry])
  · exact (State.entry_congr hptab q).trans (hother q hq)

/-! ### PAT_STEPS (R12, R13) -/

section Steps

variable {id first : Byte} {records : List RawStep} {p : PatId} {new : List Step} {h : Header} {steps : List Step}
  (hp : p.val = id.toNat) (hnew : validSteps? records = some new) (hend : first.toNat + new.length ≤ 64)

include hp hnew hend

theorem ownerPatSteps_notFound (ho : s.openLoad p = none) : ownerPatSteps id first records s = refuse s .notFound := by
  simp only [ownerPatSteps, index?_of_toNat hp.symm, hnew, if_neg hend.not_gt, ho]

theorem ownerPatSteps_badField (ho : s.openLoad p = some (h, steps)) (hn : h.count < first.toNat + new.length) :
    ownerPatSteps id first records s = refuse s .badField := by
  simp only [ownerPatSteps, index?_of_toNat hp.symm, hnew, if_neg hend.not_gt, ho, if_pos hn]

theorem ownerPatSteps_appendSteps (ho : s.openLoad p = some (h, steps)) (hn : first.toNat + new.length ≤ h.count) :
    ownerPatSteps id first records s = appendSteps p first.toNat new h steps s := by
  simp only [ownerPatSteps, index?_of_toNat hp.symm, hnew, if_neg hend.not_gt, ho, if_neg hn.not_gt]

end Steps

section Append

variable {p : PatId} {first : Nat} {new : List Step} {h : Header} {steps : List Step}

theorem appendSteps_append (ha : first = steps.length) : appendSteps p first new h steps s
    = answerOk ((s.setEntry p (.loading h (steps ++ new))).startLoad p) [byteOf (steps.length + new.length)] := by
  simp only [appendSteps, if_pos ha, List.length_append]

theorem appendSteps_resend (ha : ¬first = steps.length)
    (hr : first + new.length ≤ steps.length ∧ (steps.drop first).take new.length = new) :
    appendSteps p first new h steps s = answerOk (s.startLoad p) [byteOf steps.length] := by
  simp only [appendSteps, if_neg ha, if_pos hr]

theorem appendSteps_sequence (ha : ¬first = steps.length)
    (hr : ¬(first + new.length ≤ steps.length ∧ (steps.drop first).take new.length = new)) :
    appendSteps p first new h steps s = refuseSequence s steps.length := by
  simp only [appendSteps, if_neg ha, if_neg hr]

/-- A re-send repeats what the entry holds from the first index on (R13). -/
theorem resend_iff : (steps.drop first).take new.length = new ↔ ∀ i, i < new.length → steps[first + i]? = new[i]? := by
  constructor
  · intro e i hi
    have : ((steps.drop first).take new.length)[i]? = new[i]? := by rw [e]
    rwa [List.getElem?_take_of_lt hi, List.getElem?_drop] at this
  · intro e
    refine List.ext_getElem? fun i => ?_
    by_cases hi : i < new.length
    · rw [List.getElem?_take_of_lt hi, List.getElem?_drop, e i hi]
    · rw [List.getElem?_eq_none (by simp; omega), List.getElem?_eq_none (by omega)]

end Append

/-- Settles O6: the checks of R12 against the open entry, and the three outcomes of R13; an entry that stays LOADING gives no job its step,
so no line moves. -/
theorem patStepsDecides : Obligations.PatStepsDecides := by
  refine ⟨fun s v id first records p new hs hx hp h1 h8 hnew hend => ?_,
    fun s v id first records p new l h steps hs hx hp h1 h8 hnew hend hl hid he hn => ?_⟩
  all_goals
    have hi : Instr.request (.patSteps v id first records) = some (v, .patSteps id first records) := rfl
    have hr : Request.Fits (.patSteps id first records) := ⟨h1, h8⟩
    obtain ⟨t, ht⟩ := exec_next hi hr hx
    refine ⟨t, ht, ?_⟩
  · exact ⟨fun hno => refused_of_exec hs hi hr hx ht (ownerPatSteps_notFound hp hnew hend (State.openLoad_of_elsewhere hno)),
      fun l h steps hl hid he hn => refused_of_exec hs hi hr hx ht
        (ownerPatSteps_badField hp hnew hend (State.openLoad_of_loading hl hid he) hn)⟩
  · have hsteps := ownerPatSteps_appendSteps hp hnew hend (State.openLoad_of_loading hl hid he) hn
    have hresend : (first.toNat + new.length ≤ steps.length ∧ ∀ i, i < new.length → steps[first.toNat + i]? = new[i]?) ↔
        first.toNat + new.length ≤ steps.length ∧ (steps.drop first.toNat).take new.length = new :=
      and_congr_right fun _ => resend_iff.symm
    simp only [hresend]
    refine ⟨fun ha => ?append, fun ha hre => ?resend, fun ha hre => ?sequence⟩
    case append =>
      have hsame : (s.setEntry p (.loading h (steps ++ new))).entry p = .loading h (steps ++ new) := by simp
      have hother (q : PatId) (hq : q ≠ p) : (s.setEntry p (.loading h (steps ++ new))).entry q = s.entry q := by simp [hq]
      obtain ⟨ha, hptab⟩ := answered_of_exec_patterns hs hi hr hx ht (hsteps.trans (appendSteps_append ha)) rfl
        fun _ a _ => State.currentStep_of_not_ready hother (by rw [he]; rfl) (congrArg Entry.isReady hsame) a
      exact ⟨ha, (State.entry_congr hptab p).trans hsame, fun q hq => (State.entry_congr hptab q).trans (hother q hq),
        by rw [hptab]; rfl⟩
    case resend =>
      obtain ⟨ha, hptab⟩ := answered_of_exec_patterns hs hi hr hx ht (hsteps.trans (appendSteps_resend ha hre)) rfl
        fun _ _ _ => rfl
      exact ⟨ha, by rw [hptab]; rfl, by rw [hptab]; rfl⟩
    case sequence => exact refused_of_exec hs hi hr hx ht (hsteps.trans (appendSteps_sequence ha hre))

/-! ### PAT_DELETE (R18) -/

section Delete

variable {id : Byte} {p : PatId} {h : Header} {steps : List Step}

theorem ownerPatDelete_badField (hid : 32 ≤ id.toNat) : ownerPatDelete id s = refuse s .badField := by
  simp only [ownerPatDelete, index?_of_le hid]

variable (hp : p.val = id.toNat)

include hp

theorem ownerPatDelete_notFound (he : (s.entry p).isReady = false) : ownerPatDelete id s = refuse s .notFound := by
  simp only [ownerPatDelete, index?_of_toNat hp.symm]
  cases hx : s.entry p with
  | free | loading => rfl
  | ready => rw [hx] at he; cases he

theorem ownerPatDelete_inUse {n : Nat} (he : s.entry p = .ready h steps (n + 1)) : ownerPatDelete id s = refuse s .inUse := by
  simp only [ownerPatDelete, index?_of_toNat hp.symm, he, if_pos n.succ_pos]

theorem ownerPatDelete_free (he : s.entry p = .ready h steps 0) :
    ownerPatDelete id s = answerOk (s.setEntry p .free) (s.setEntry p .free).freeStepsBytes := by
  simp only [ownerPatDelete, index?_of_toNat hp.symm, he, lt_irrefl, if_false]

end Delete

/-- Settles O9: the four answers of R18; a deleted entry was named by no job, so no line moves. -/
theorem patDeleteDecides : Obligations.PatDeleteDecides := by
  intro s v id hs hrefs hok hx
  have hi : Instr.request (.patDelete v id) = some (v, .patDelete id) := rfl
  have hr : Request.Fits (.patDelete id) := trivial
  obtain ⟨t, ht⟩ := exec_next hi hr hx
  refine ⟨t, ht, fun hid => refused_of_exec hs hi hr hx ht (ownerPatDelete_badField hid), fun p hp =>
    ⟨fun he => refused_of_exec hs hi hr hx ht (ownerPatDelete_notFound hp he),
      fun h steps n he => refused_of_exec hs hi hr hx ht (ownerPatDelete_inUse hp he), fun h steps he => ?_⟩⟩
  have hfree : (s.setEntry p .free).ptab.freeSteps = s.ptab.freeSteps + h.count := by
    rw [State.freeSteps_setEntry hok.pool (n := 0) rfl (Nat.zero_le _), he]
    rfl
  have hother (q : PatId) (hq : q ≠ p) : (s.setEntry p .free).entry q = s.entry q := by simp [hq]
  obtain ⟨ha, hptab⟩ := answered_of_exec_patterns hs hi hr hx ht (ownerPatDelete_free hp he) rfl
    (State.currentStep_of_unnamed hother (hrefs.naming_eq_zero (by rw [he]; rfl)))
  refine ⟨by rw [← hfree]; exact ha, ?_, fun q hq => ?_, by rw [hptab]; rfl, by rw [hptab, hfree]⟩
  · exact (State.entry_congr hptab p).trans (by simp)
  · exact (State.entry_congr hptab q).trans (hother q hq)

/-! ### PAT_INFO and PAT_READ (R19, R20) -/

section Read

variable {id first count : Byte} {p : PatId} {steps : List Step} (hp : p.val = id.toNat)

include hp

/-- PAT_INFO answers by the entry's state. -/
theorem ownerPatInfo_eq : ownerPatInfo id s = answerOk s (match s.entry p with
    | .free => 0x00#8 :: s.freeStepsBytes
    | .loading h steps => 0x01#8 :: (s.freeStepsBytes ++ h.infoBytes steps.length)
    | .ready h _ refs => 0x02#8 :: (s.freeStepsBytes ++ h.infoBytes refs)) := by
  simp only [ownerPatInfo, index?_of_toNat hp.symm]
  cases s.entry p <;> rfl

variable (h1 : 1 ≤ count.toNat) (h8 : count.toNat ≤ 8) (hend : first.toNat + count.toNat ≤ 64)

include h1 h8 hend

/-- PAT_READ with fields in range looks at the stored steps alone. -/
theorem ownerPatRead_eq : ownerPatRead id first count s = match (s.entry p).readable with
    | none => refuse s .notFound
    | some steps => if steps.length < first.toNat + count.toNat then refuse s .badField
      else answerOk s ([id, first, count] ++ ((steps.drop first.toNat).take count.toNat).flatMap fun x => rawStepBytes x.raw) := by
  have hc : ¬(count = 0x00#8 ∨ 8 < count.toNat ∨ 64 < first.toNat + count.toNat) := by
    rintro (rfl | h | h)
    · simp at h1
    all_goals omega
  simp only [ownerPatRead, index?_of_toNat hp.symm, if_neg hc] <;> rfl

end Read

/-- Settles O10: both commands answer what the entry holds, and write nothing. -/
theorem patInfoAndPatRead : Obligations.PatInfoAndPatRead := by
  intro s v id first count p hs hp
  refine ⟨fun hx => ?_, fun hx h1 h8 hend => ?_⟩
  · have hi : Instr.request (.patInfo v id) = some (v, .patInfo id) := rfl
    obtain ⟨t, ht⟩ := exec_next hi trivial hx
    have answers := answered_unchanged hs hi trivial hx ht (ownerPatInfo_eq hp)
    refine ⟨t, ht, fun he => ?_, fun h steps he => ?_, fun h steps n he => ?_⟩ <;>
    · rw [he] at answers
      exact answers
  · have hi : Instr.request (.patRead v id first count) = some (v, .patRead id first count) := rfl
    obtain ⟨t, ht⟩ := exec_next hi trivial hx
    have hown := ownerPatRead_eq (s := s) hp h1 h8 hend
    refine ⟨t, ht, fun he => ?_, fun h steps he => ?_⟩
    · exact refused_of_exec hs hi trivial hx ht (hown.trans (by rw [he]; rfl))
    · have hread : (s.entry p).readable = some steps := by rcases he with he | ⟨n, he⟩ <;> rw [he] <;> rfl
      simp only [hread] at hown
      exact ⟨fun hlt => refused_of_exec hs hi trivial hx ht (hown.trans (if_pos hlt)),
        fun hle => answered_unchanged hs hi trivial hx ht (hown.trans (if_neg hle.not_gt))⟩

/-! ### The expiry of the load timer (R16) -/

/-- An open load is abandoned with its report. -/
theorem State.abandonLoad_of_loading {l : Load} {h : Header} {steps : List Step} (hl : s.ptab.load = some l)
    (he : s.entry l.id = .loading h steps) : s.abandonLoad = ((s.setEntry l.id .free).emptySlot).report .table .loadAbandoned none 0#16
      (byteOf l.id.val) (byteOf steps.length) := by
  simp only [State.abandonLoad, hl, he]

/-- Settles O11: the entry that is made FREE was LOADING and gave no job its step, so no line moves. -/
theorem loadTimerExpires : Obligations.LoadTimerExpires := by
  intro s l h steps hs hl he
  obtain ⟨t, ht, hearly, hdue⟩ := runEvent_next s.loadExpired State.abandonLoad s
  have hexp : s.loadExpired = decide (l.remaining = 0) := by simp only [State.loadExpired, hl]
  refine ⟨t, ht, fun hn => hearly (by simp [hexp, hn]), fun hz => ?_⟩
  obtain rfl := hdue (by simp [hexp, hz])
  rw [State.abandonLoad_of_loading hl he]
  have hother (q : PatId) (hq : q ≠ l.id) := s.entry_closeLoad_other l.id .free q hq
  have hres := s.reservedSteps_setEntry l.id .free
  rw [he] at hres
  refine ⟨?_, fun q hq => ?_, by simp, by simpa [Entry.reserved] using hres, ?_, ?_, State.settled_settle _⟩
  · rw [State.entry_settle]
    exact s.entry_closeLoad_same l.id .free
  · rw [State.entry_settle]
    exact hother q hq
  · rw [State.settle_rpt (by simp [hs.outbox, oneProducer])]
    simp [hs.outbox]
  · refine hs.keepsAllBut rfl rfl (fun b hb _ _ _ => by cases b <;> first | rfl | simp at hb) (fun _ => ?_) (fun hb => by simp at hb)
      fun _ => ⟨rfl, by simp [hs.outbox, oneProducer]⟩
    exact State.drivenLevel_of_steps rfl rfl fun _ a _ =>
      State.currentStep_of_not_ready hother (by rw [he]; rfl) (congrArg Entry.isReady (s.entry_closeLoad_same l.id .free)) a

end Sys2Proof.Machine
end

section
/-! PROOFS. Commands that write the tables and settings of one block: CAR_SET, CH_CONFIG, CH_ENABLE, CLEAR_FAULT, LEASE and RECOVER (R77, R99,
R102, R108, R140, R145), with what the lines depend on. -/

namespace Sys2Proof.Machine

variable {s t : State} {c : Chan}

/-! ### What a line depends on (R100) -/

/-- A line depends on its channel, on the step that its job stands at and on the generator of an open gate. -/
theorem State.drivenLevel_eq (hc : t.chan c = s.chan c) (hstep : ∀ a, (s.chan c).active = some a → t.currentStep a = s.currentStep a)
    (hgen : ∀ a g, (s.chan c).active = some a → a.attach = some ⟨g, .opened⟩ → (t.gen g).inHigh = (s.gen g).inHigh) :
    t.drivenLevel c = s.drivenLevel c := by
  unfold State.drivenLevel State.level
  rw [hc]
  cases ha : (s.chan c).active with
  | none => rfl
  | some a =>
    have hp : t.playingLevel (s.chan c).config a = s.playingLevel (s.chan c).config a := by
      rcases hat : a.attach with _ | ⟨g, _ | _⟩
      · simp only [State.playingLevel, hat, hstep a ha]
      · rw [State.playingLevel_opening hat, State.playingLevel_opening hat]
      · rw [State.playingLevel_opened hat, State.playingLevel_opened hat, hgen a g ha hat]
    simp only [hp]

/-- A channel that stays in a state in which its line rests keeps its line. -/
theorem State.drivenLevel_of_resting (hcfg : (t.chan c).config = (s.chan c).config)
    (ht : (t.chan c).state = .idle ∨ (t.chan c).state = .armed ∨ (t.chan c).state = .carrierWait ∨ (t.chan c).state = .held)
    (hs : (s.chan c).state = .idle ∨ (s.chan c).state = .armed ∨ (s.chan c).state = .carrierWait ∨ (s.chan c).state = .held) :
    t.drivenLevel c = s.drivenLevel c := by
  rw [State.drivenLevel, State.drivenLevel, State.level_of_waiting ht, State.level_of_waiting hs, hcfg]

theorem State.drivenLevel_of_off (h : (s.chan c).state = .off) : s.drivenLevel c = .released := by
  rw [State.drivenLevel, State.level_of_off h, LineConfig.drive_released]

/-- The reference counts of the entries move no job. -/
theorem State.currentStep_of_clearRefs (h : ∀ p, (t.entry p).clearRefs = (s.entry p).clearRefs) (a : Active) :
    t.currentStep a = s.currentStep a := by
  have key : ∀ u : State, u.currentStep a = match (u.entry a.job.pattern).clearRefs with
      | .ready _ steps _ => steps[a.stepIndex]?
      | _ => none := fun u => by
    unfold State.currentStep
    cases u.entry a.job.pattern <;> rfl
  rw [key, key, h]

/-! ### CAR_SET (R77) -/

section CarSet

variable {cls : Byte} {period high : Half} {k : Cls} (hk : k.val = cls.toNat)
  (hp : 16 ≤ period.toNat) (h1 : 1 ≤ high.toNat) (hh : high.toNat < period.toNat)

theorem State.holder_isSome {k : Cls} : (s.holder k).isSome = true ↔ ∃ g, (s.gen g).cls = some k := by
  rw [Option.isSome_iff_ne_none, ne_eq, State.holder_eq_none]
  simp

include hk hp h1 hh

theorem ownerCarSet_eq : ownerCarSet cls period high s
    = if (s.holder k).isSome then refuse s .inUse else answerOk (s.setClass k (some ⟨period.toNat, high.toNat⟩)) [] := by
  simp only [ownerCarSet, carSetFields?, index?_of_toNat hk.symm, if_pos (And.intro hp (And.intro h1 hh))]

end CarSet

/-- Settles O12: a class that a generator holds is refused, and any other is written into the class table, which no line reads. -/
theorem carSetDecides : Obligations.CarSetDecides := by
  intro s v cls period high k hs hx hk hp h1 hh
  have hi : Instr.request (.carSet v cls period high) = some (v, .carSet cls period high) := rfl
  obtain ⟨t, ht⟩ := exec_next hi trivial hx
  have hown := ownerCarSet_eq (s := s) hk hp h1 hh
  refine ⟨t, ht, fun hg => refused_of_exec hs hi trivial hx ht (hown.trans (if_pos (State.holder_isSome.2 hg))), fun hg => ?_⟩
  obtain ⟨rfl, ha⟩ := answered_of_exec hi trivial hx ht
    (hown.trans (if_neg (by rw [State.holder_isSome]; simpa using hg))) rfl
  refine ⟨ha _ (hs.keepsAllBut rfl rfl (fun b hb _ _ _ => by cases b <;> first | rfl | simp at hb)
    (fun _ c => State.drivenLevel_eq rfl (fun _ _ => rfl) fun _ _ _ _ => rfl) (fun _ => ⟨rfl, hs.outbox⟩)
    fun _ => ⟨rfl, by rw [State.setClass_outbox, hs.outbox]; rfl⟩), ?_, fun k' hk' => ?_, ?_, ?_⟩
  · exact (State.carrierClass_settle _ k).trans (by simp)
  · exact (State.carrierClass_settle _ k').trans (by simp [hk'])
  · exact (congrArg Carriers.gens (State.settle_carb _)).trans rfl
  · exact (congrArg Carriers.waitList (State.settle_carb _)).trans rfl

/-! ### CH_CONFIG (R99) -/

/-- Settles O32: the record of an OFF channel is replaced, whose line is released whatever its configuration. -/
theorem chConfigDecides : Obligations.ChConfigDecides := by
  intro s v p c activeLow openDrain restActive readback onLease sf hs hx hc hpol hdrv hrest hsf hrb hsol hlim
  have hi : Instr.request (.chConfig v p) = some (v, .chConfig p) := rfl
  obtain ⟨t, ht⟩ := exec_next hi trivial hx
  have hcfg : lineConfig? p = some (c, ⟨activeLow, openDrain, restActive, sf, readback, onLease, byteOf p.waitLimit.toNat⟩) := by
    simp only [lineConfig?, index?_of_toNat hc.symm, hpol, hdrv, hrest, hsf, hrb, hsol, if_pos hlim]
  refine ⟨t, ht, fun hoff => refused_of_exec hs hi trivial hx ht ?_, fun hoff => ?_⟩
  · exact (show ownerChConfig p s = refuse s .badState by simp only [ownerChConfig, hcfg, if_neg hoff])
  · obtain ⟨rfl, ha⟩ := answered_of_exec hi trivial hx ht (u := s.modChan c fun ch => { ch with
      config := ⟨activeLow, openDrain, restActive, sf, readback, onLease, byteOf p.waitLimit.toNat⟩ }) (fields := [])
      (show ownerChConfig p s = _ by simp only [ownerChConfig, hcfg, if_pos hoff]) rfl
    refine ⟨?_, fun d hd => ?_, ha _ (hs.keepsAllBut rfl rfl (fun b hb _ _ _ => by cases b <;> first | rfl | simp at hb)
      (fun _ d => ?_) (fun _ => ⟨rfl, hs.outbox⟩) fun _ => ⟨rfl, by rw [State.modChan_outbox, hs.outbox]; rfl⟩)⟩
    · exact (State.chan_settle _ c).trans (by simp)
    · exact (State.chan_settle _ d).trans (by simp [hd])
    · by_cases hd : d = c
      · subst hd
        rw [State.drivenLevel_of_off hoff, State.drivenLevel_of_off (by simpa using hoff)]
      · exact State.drivenLevel_eq (by simp [hd]) (fun _ _ => rfl) fun _ _ _ _ => rfl

/-! ### CH_ENABLE and CLEAR_FAULT (R102, R108) -/

section Enlist

variable {i : Instr} {v : Via} {r : Request} {mask : Byte} {x : ChState}

/-- Both commands take the named channels in one state to the state in which a channel is enabled. -/
theorem enlists (hs : s.Settled) (hi : i.request = some (v, r)) (hr : r.Fits) (hx : s.Executes v r)
    (ho : owner r v.tag s = answerOk (s.enlist mask x) [s.inState mask x]) : ∃ t, exec i s = .next t ∧
      (∀ c : Chan, t.chan c = if mask.getLsbD c.val ∧ (s.chan c).state = x then
        { s.chan c with state := if s.lease.state = .expired ∧ (s.chan c).config.safeOnLease = true then .safe else .idle }
        else s.chan c) ∧
      s.Answered t v r [maskOf fun c => mask.getLsbD c.val && decide ((s.chan c).state = x)] [.channels, .outputs] := by
  obtain ⟨t, ht⟩ := exec_next hi hr hx
  obtain ⟨rfl, ha⟩ := answered_of_exec hi hr hx ht ho rfl
  refine ⟨_, ht, fun c => ?_, ha _ (hs.keepsAllBut rfl rfl (fun b hb _ _ _ => by cases b <;> first | rfl | simp at hb)
    (fun hb => by simp at hb) (fun _ => ⟨rfl, hs.outbox⟩) fun _ => ⟨rfl, ?_⟩)⟩
  · refine (State.chan_settle _ c).trans ?_
    simp only [State.enlist, State.chan_mapChans, Bool.and_eq_true, decide_eq_true_eq, LeaseTimer.entryState]
  · rw [State.enlist, State.mapChans_outbox, hs.outbox]
    rfl

end Enlist

/-- Settles O33: the two commands are one operation on the channels that are OFF or in FAULT. -/
theorem enableAndClearFault : Obligations.EnableAndClearFault := by
  intro s v mask hs hmask
  exact ⟨fun hx => enlists hs rfl trivial hx (if_neg hmask), fun hx => enlists hs rfl trivial hx (if_neg hmask)⟩

/-! ### LEASE and RECOVER (R140, R145) -/

theorem validPeriod_iff (n : Nat) : validPeriod n = true ↔ ¬((1 ≤ n ∧ n ≤ 9) ∨ 60000 < n) := by
  simp only [validPeriod, Bool.or_eq_true, Bool.and_eq_true, decide_eq_true_eq]
  omega

/-- Settles O45: the two refusals of R140 in their order, and the new lease by its period. -/
theorem leaseDecides : Obligations.LeaseDecides := by
  intro s v period hs hx
  have hi : Instr.request (.lease v period) = some (v, .lease period) := rfl
  obtain ⟨t, ht⟩ := exec_next hi trivial hx
  have hok (hbad : ¬((1 ≤ period.toNat ∧ period.toNat ≤ 9) ∨ 60000 < period.toNat)) : ownerLease period s
      = if s.lease.state = .expired then refuse s .badState
        else answerOk { s with lease := .withPeriod period.toNat }
          (natBytes2 s.lease.period ++ [(LeaseTimer.withPeriod period.toNat).state.code]) :=
    if_pos ((validPeriod_iff _).2 hbad)
  have accepted (hbad : ¬((1 ≤ period.toNat ∧ period.toNat ≤ 9) ∨ 60000 < period.toNat)) (he : s.lease.state ≠ .expired) :
      t.lease = .withPeriod period.toNat ∧ s.Answered t v (.lease period)
        (natBytes2 s.lease.period ++ [(LeaseTimer.withPeriod period.toNat).state.code]) [.lease] := by
    obtain ⟨rfl, ha⟩ := answered_of_exec hi trivial hx ht ((hok hbad).trans (if_neg he)) rfl
    exact ⟨State.settle_lease _, ha _ (hs.keepsAllBut rfl rfl (fun b hb _ _ _ => by cases b <;> first | rfl | simp at hb)
      (fun _ _ => rfl) (fun _ => ⟨rfl, hs.outbox⟩) fun _ => ⟨rfl, congrArg oneProducer hs.outbox⟩)⟩
  refine ⟨t, ht, fun hbad => refused_of_exec hs hi trivial hx ht ?_, fun hbad he =>
    refused_of_exec hs hi trivial hx ht ((hok hbad).trans (if_pos he)), fun he hz => ?_, fun he h10 hmax => ?_⟩
  · exact if_neg (by rw [validPeriod_iff]; exact not_not_intro hbad)
  · have h := accepted (by omega) he
    rwa [hz] at h
  · have hne : period.toNat ≠ 0 := by omega
    have h := accepted (by omega) he
    rwa [LeaseTimer.withPeriod, if_neg hne] at h

/-- Settles O47: RECOVER takes the SAFE channels to IDLE, and the lease runs again. -/
theorem recoverDecides : Obligations.RecoverDecides := by
  intro s v hs hx
  have hi : Instr.request (.recover v) = some (v, .recover) := rfl
  obtain ⟨t, ht⟩ := exec_next hi trivial hx
  refine ⟨t, ht, fun he => refused_of_exec hs hi trivial hx ht (if_neg he), fun he => ?_⟩
  have hmask : s.inState 0xFF#8 .safe = maskOf fun c => decide ((s.chan c).state = .safe) := by
    have hall : ∀ c : Chan, (0xFF#8).getLsbD c.val = true := by decide
    simp only [State.inState, hall, Bool.true_and]
  obtain ⟨rfl, ha⟩ := answered_of_exec hi trivial hx ht (if_pos he) rfl
  rw [hmask] at ha
  refine ⟨State.settle_lease _, fun c => ?_, ?_⟩
  · exact (State.chan_settle _ c).trans (State.chan_mapChans s c _)
  · rw [hmask]
    exact ha _ (hs.keepsAllBut rfl rfl (fun b hb _ _ _ => by cases b <;> first | rfl | simp at hb)
      (fun hb => by simp at hb) (fun _ => ⟨rfl, hs.outbox⟩) fun _ => ⟨rfl, congrArg oneProducer hs.outbox⟩)

end Sys2Proof.Machine
end

section
/-! PROOFS. The report unit's and the reporting commands: ATTN_CONFIG, the hold age, FETCH, IDENT, TIME, STATUS, LINES, CH_STATUS and
CAR_STATUS (R46, R95, R109, R124, R130, R134 to R136, R177, R178). -/

namespace Sys2Proof.Machine

variable {s t : State}

/-! ### ATTN_CONFIG and the hold age (R134 to R136) -/

theorem flag?_of_lt {b : Byte} (h : b.toNat < 2) : flag? b = some (decide (b = 0x01#8)) := by
  have hb : b = 0x00#8 ∨ b = 0x01#8 := by bv_omega
  rcases hb with rfl | rfl <;> rfl

theorem flag?_of_le {b : Byte} (h : 2 ≤ b.toNat) : flag? b = none := by
  have h0 : b ≠ 0x00#8 := by rintro rfl; simp at h
  have h1 : b ≠ 0x01#8 := by rintro rfl; simp at h
  simp only [flag?, if_neg h0, if_neg h1]

section Attention

variable {enable threshold holdTime : Byte}

theorem ownerAttnConfig_badField (h : 2 ≤ enable.toNat ∨ threshold.toNat = 0 ∨ 32 ≤ threshold.toNat) :
    ownerAttnConfig enable threshold holdTime s = refuse s .badField := by
  unfold ownerAttnConfig
  split
  · rfl
  · next e he =>
    have hlt : enable.toNat < 2 := by
      by_contra hle
      rw [flag?_of_le (by omega)] at he
      cases he
    exact if_neg (by omega)

theorem ownerAttnConfig_ok (he : enable.toNat < 2) (h1 : 1 ≤ threshold.toNat) (h31 : threshold.toNat ≤ 31) :
    ownerAttnConfig enable threshold holdTime s
      = answerOk { s with rpt := s.rpt.configure (decide (enable = 0x01#8)) threshold.toNat holdTime }
        [flagByte s.rpt.enable, byteOf s.rpt.threshold, s.rpt.holdTime, byteOf s.rpt.undelivered] := by
  simp only [ownerAttnConfig, flag?_of_lt he, if_pos (And.intro h1 h31)]

/-- The settings are written, and the age of the oldest undelivered record is reckoned anew under a new hold time. -/
theorem ReportUnit.configure_eq (u : ReportUnit) (e : Bool) (n : Nat) (h : Byte) : u.configure e n h = { u with
    enable := e, threshold := n, holdTime := h
    ageReached := if h = u.holdTime then u.ageReached else { u with enable := e, threshold := n, holdTime := h }.reckonAge } := by
  unfold ReportUnit.configure
  split <;> rfl

end Attention

/-- The age of the oldest undelivered record, reckoned from its stamp (R135). -/
theorem ReportUnit.reckonAge_of_oldest {u : ReportUnit} {r : Record} (h : u.queue[u.batchSize]? = some r) :
    u.reckonAge = (decide (u.holdTime ≠ 0x00#8) && decide (u.holdTime.toNat * 1000 ≤ (u.partTime - r.report.time).toNat)) := by
  simp only [reckonAge, oldest, h]

theorem ReportUnit.reckonAge_of_none {u : ReportUnit} (h : u.queue[u.batchSize]? = none) : u.reckonAge = false := by
  simp only [reckonAge, oldest, h]

theorem ReportUnit.ageDue_of_oldest {u : ReportUnit} {r : Record} (h : u.queue[u.batchSize]? = some r) : u.ageDue
    = (!u.ageReached && (decide (u.holdTime ≠ 0x00#8) && decide (u.holdTime.toNat * 1000 ≤ (u.partTime - r.report.time).toNat))) := by
  rw [ageDue, reckonAge_of_oldest h]

/-- Settles O41: ATTN_N is decided at the end of every event; ATTN_CONFIG writes the settings, and the hold age is reached at its moment. -/
theorem attentionIsDecided : Obligations.AttentionIsDecided := by
  intro s v enable threshold holdTime hs
  refine ⟨hs.attention, fun hx => ?config, ?age⟩
  case config =>
    have hi : Instr.request (.attnConfig v enable threshold holdTime) = some (v, .attnConfig enable threshold holdTime) := rfl
    obtain ⟨t, ht⟩ := exec_next hi trivial hx
    have hpulls : t.rpt.attention = t.rpt.pulls := by
      obtain rfl : _ = t := Host.Outcome.next.inj ((exec_of_executes hi trivial hx).symm.trans ht)
      exact State.settle_attention _
    refine ⟨t, ht, hpulls, fun hbad => refused_of_exec hs hi trivial hx ht (ownerAttnConfig_badField hbad), fun he h1 h31 => ?_⟩
    obtain ⟨ha, hrpt⟩ := answered_of_exec_reports hs hi trivial hx ht (ownerAttnConfig_ok he h1 h31) rfl
    rw [hrpt, ReportUnit.configure_eq]
    refine ⟨rfl, rfl, rfl, rfl, rfl, rfl, rfl, rfl, fun hh => if_pos hh, fun hh => (if_neg hh).trans ?_, ha⟩
    cases ho : s.rpt.queue[s.rpt.batchSize]? with
    | none => exact ReportUnit.reckonAge_of_none ho
    | some r => exact ReportUnit.reckonAge_of_oldest ho
  case age =>
    obtain ⟨t, ht, hearly, hdue⟩ := runEvent_next s.rpt.ageDue (fun t => { t with rpt := { t.rpt with ageReached := true } }) s
    refine ⟨t, ht, fun hno => hearly ?_, fun r hr hh hna => ⟨fun hlt => hearly ?_, fun hle => ?_⟩⟩
    · rcases ho : s.rpt.queue[s.rpt.batchSize]? with _ | r
      · simp [ReportUnit.ageDue, ReportUnit.reckonAge_of_none ho]
      · rcases hno with hno | hno | hno
        · exact absurd (ho.symm.trans hno) (by simp)
        · simp [ReportUnit.ageDue_of_oldest ho, hno]
        · simp [ReportUnit.ageDue_of_oldest ho, hno]
    · rw [ReportUnit.ageDue_of_oldest hr, decide_eq_false hlt.not_ge, Bool.and_false, Bool.and_false]
    · obtain rfl := hdue (by rw [ReportUnit.ageDue_of_oldest hr, hna, decide_eq_true hh, decide_eq_true hle]; rfl)
      have hage : ({ s.rpt with ageReached := true } : ReportUnit).ageCondition = true := by
        have ho : ({ s.rpt with ageReached := true } : ReportUnit).oldest = some r := hr
        simp [ReportUnit.ageCondition, ho, hh]
      have hpulls : ({ s.rpt with ageReached := true } : ReportUnit).pulls = s.rpt.enable := by
        rw [ReportUnit.pulls, hage, Bool.or_true, Bool.and_true]
      refine ⟨?_, hs.keepsAllBut rfl rfl (fun b hb _ _ _ => by cases b <;> first | rfl | simp at hb) (fun _ _ => rfl)
        (fun hb => by simp at hb) (fun _ => ⟨rfl, congrArg oneProducer hs.outbox⟩), State.settled_settle _⟩
      exact (State.settle_rpt_of_outbox_nil { s with rpt := { s.rpt with ageReached := true } } hs.outbox).trans
        (congrArg (fun x => { s.rpt with ageReached := true, attention := x }) hpulls)

/-! ### FETCH (R130) -/

section Fetch

variable {u : ReportUnit} {k : Nat} {tag : Byte}

theorem ReportUnit.redelivers_iff : u.redelivers tag = true ↔ ∃ b, u.batch = some b ∧ b.tag = tag ∧ tag ≠ 0x00#8 := by
  unfold ReportUnit.redelivers
  cases u.batch <;> simp

theorem ReportUnit.newBatch_queue : (u.newBatch k tag).queue = u.queue.drop u.batchSize := rfl

theorem ReportUnit.newBatch_batch : (u.newBatch k tag).batch
    = if u.queue.drop u.batchSize = [] then none else some ⟨tag, min k (u.queue.drop u.batchSize).length⟩ := by
  simp only [newBatch, removeBatch, List.isEmpty_iff]

/-- The size of a new batch: min(k, m) of the m records left, with no batch where none are left. -/
theorem ReportUnit.newBatch_batchSize : (u.newBatch k tag).batchSize = min k (u.queue.drop u.batchSize).length := by
  rw [ReportUnit.batchSize, newBatch_batch]
  by_cases h : u.queue.drop u.batchSize = []
  · rw [if_pos h, h, List.length_nil, Nat.min_zero]
  · rw [if_neg h]

/-- The oldest undelivered record is then the one behind the new batch. -/
theorem ReportUnit.newBatch_ageReached : (u.newBatch k tag).ageReached
    = match (u.queue.drop u.batchSize)[min k (u.queue.drop u.batchSize).length]? with
      | none => false
      | some r => decide (u.holdTime ≠ 0x00#8) && decide (u.holdTime.toNat * 1000 ≤ (u.partTime - r.report.time).toNat) := by
  have h : (u.newBatch k tag).ageReached = (u.newBatch k tag).reckonAge := rfl
  rw [h, reckonAge, oldest, newBatch_batchSize]
  rfl

theorem ownerFetch_ok {k : Byte} (h1 : 1 ≤ k.toNat) (h4 : k.toNat ≤ 4) : ownerFetch k tag s
    = answerOk { s with rpt := s.rpt.fetch k.toNat tag } (s.rpt.fetch k.toNat tag).fetchBytes :=
  if_pos ⟨h1, h4⟩

end Fetch

/-- Settles O42: FETCH answers the batch that then stands, which is the old one or is formed from the oldest records. -/
theorem fetchDecides : Obligations.FetchDecides := by
  intro s v k hs _ hx h1 h4
  have hi : Instr.request (.fetch v k) = some (v, .fetch k) := rfl
  obtain ⟨t, ht⟩ := exec_next hi trivial hx
  have hown := ownerFetch_ok (s := s) (tag := v.tag) h1 h4
  refine ⟨t, ht, ?_⟩
  rw [← ReportUnit.redelivers_iff]
  refine ⟨fun hagain => ?_, fun hagain => ?_⟩
  · have hsame : s.rpt.fetch k.toNat v.tag = s.rpt := if_pos hagain
    rw [hsame] at hown
    exact answered_unchanged hs hi trivial hx ht hown
  · have hnew : s.rpt.fetch k.toNat v.tag = s.rpt.newBatch k.toNat v.tag := if_neg hagain
    rw [hnew] at hown
    obtain ⟨ha, hrpt⟩ := answered_of_exec_reports hs hi trivial hx ht hown rfl
    rw [hrpt]
    refine ⟨rfl, ReportUnit.newBatch_batch, rfl, rfl, rfl, rfl, rfl, ReportUnit.newBatch_ageReached, ?_⟩
    rw [ReportUnit.fetchBytes, ReportUnit.undelivered, ReportUnit.batchRecords, ReportUnit.newBatch_batchSize,
      ReportUnit.newBatch_queue] at ha
    exact ha

/-! ### IDENT, TIME and STATUS (R124, R177, R178) -/

/-- STATUS is answered with the unit status, and clears the link error counters if it is asked to. -/
theorem status_answers {v : Via} {clear : Byte} {f : Bool} (hs : s.Settled) (hx : s.Executes v (.status clear))
    (hf : flag? clear = some f) : ∃ t, exec (.status v clear) s = .next t ∧
      t.link = (if f then s.clearCounters else s).link.answering v (.status clear) (statusOk :: s.statusBytes) none ∧
      s.KeepsAllBut t [.link] := by
  have hi : Instr.request (.status v clear) = some (v, .status clear) := rfl
  have hown : owner (.status clear) v.tag s = answerOk (if f then s.clearCounters else s) s.statusBytes := by
    simp only [owner, ownerStatus, hf]
  have hsettled : (if f then s.clearCounters else s).Settled := by
    cases f
    exacts [hs, ⟨hs.outbox, fun c => hs.outs c, hs.attention⟩]
  refine ⟨_, exec_of_executes hi trivial hx, ?_, ?_⟩ <;> rw [hown, State.settle_reply, answerOk_state, State.settle_of_settled _ hsettled]
  · cases f <;> rfl
  · refine ⟨fun b hb => ?_, ?_, ?_⟩
    all_goals cases f
    any_goals rfl
    all_goals cases b <;> first | rfl | simp at hb

/-- The state codes of a lease and the load slot as STATUS gives them. -/
theorem State.statusBytes_eq (s : State) : s.statusBytes
    = [match s.lease.state with | .off => 0x00#8 | .running _ => 0x01#8 | .expired => 0x02#8]
      ++ wordBytes (BitVec.ofNat 32 (match s.lease.state with | .running n => micros n | _ => 0))
      ++ natBytes2 s.ptab.freeSteps ++ [byteOf (s.ptab.entries.toList.countP Entry.isReady),
        match s.ptab.load with | some l => byteOf l.id.val | none => 0xFF#8, byteOf s.rpt.queue.length,
        byteOf (s.rpt.queue.length - s.rpt.batchSize), byteOf s.rpt.batchSize, flagByte s.rpt.attention]
      ++ halfBytes s.link.counters.oversize ++ halfBytes s.link.counters.framing ++ halfBytes s.link.counters.gap
      ++ halfBytes s.link.counters.check ++ halfBytes s.link.counters.overrun
      ++ (List.finRange 8).map (fun c : Chan => byteOf (s.chan c).state.code)
      ++ (List.finRange 3).map fun g : GenId => (s.gen g).code := by
  unfold State.statusBytes PatternTable.slotByte
  cases s.lease.state <;> cases s.ptab.load <;> rfl

/-- Settles O48: the three commands read the state; only STATUS can write, and writes the counters of LINK alone. -/
theorem unitCommandsAnswer : Obligations.UnitCommandsAnswer := by
  intro s v hs
  have answers {clear : Byte} {f : Bool} (hf : flag? clear = some f) (hx : s.Executes v (.status clear)) :=
    status_answers hs hx hf
  rw [State.statusBytes_eq] at answers
  refine ⟨fun hx => ?_, fun hx => ?_, fun hx => answers (f := false) rfl hx, fun hx => answers (f := true) rfl hx⟩
  · have hi : Instr.request (.ident v) = some (v, .ident) := rfl
    obtain ⟨t, ht⟩ := exec_next hi trivial hx
    exact ⟨t, ht, answered_unchanged hs hi trivial hx ht rfl⟩
  · have hi : Instr.request (.time v) = some (v, .time) := rfl
    obtain ⟨t, ht⟩ := exec_next hi trivial hx
    exact ⟨t, ht, answered_unchanged hs hi trivial hx ht rfl⟩

/-! ### LINES, CH_STATUS and CAR_STATUS (R46, R95, R109) -/

theorem byteOf_driven_code (x : Driven) : byteOf x.code = match x with | .low => 0x00#8 | .high => 0x01#8 | .released => 0x02#8 := by
  cases x <;> rfl

theorem millisUp_eq (n : Nat) : millisUp n = (n + 7999) / 8000 := rfl

theorem micros_eq (n : Nat) : micros n = n / 8 + if n % 8 ≠ 0 ∧ Config.roundMicrosUp n = true then 1 else 0 := by
  have h : Config.clocksPerMicro = 8 := rfl
  unfold micros
  rw [h]
  split_ifs <;> simp_all

section Status

variable (ch : Channel)

theorem Channel.stateByte_eq : ch.stateByte = byteOf
    ((match ch.state with
        | .off => 0 | .idle => 1 | .armed => 2 | .playing => 3 | .carrierWait => 4 | .held => 5 | .safe => 6 | .fault => 7)
      + 16 * match ch.hold with
        | none => 0
        | some x => match x.heldFrom with | .idle => 1 | .armed => 2 | .playing => 3 | .carrierWait => 4) := by
  have hheld : (match ch.hold with | some h => 16 * h.heldFrom.state.code | none => 0) = 16 * match ch.hold with
      | none => 0
      | some x => match x.heldFrom with | .idle => 1 | .armed => 2 | .playing => 3 | .carrierWait => 4 := by
    rcases ch.hold with _ | ⟨f, _⟩
    · rfl
    · cases f <;> rfl
  have hstate : ch.state.code = match ch.state with
      | .off => 0 | .idle => 1 | .armed => 2 | .playing => 3 | .carrierWait => 4 | .held => 5 | .safe => 6 | .fault => 7 := by
    cases ch.state <;> rfl
  exact congrArg byteOf (congrArg₂ (· + ·) hstate hheld)

theorem LineConfig.byteA_eq (cfg : LineConfig) : cfg.byteA = byteOf
    (cfg.activeLow.toNat + 2 * cfg.openDrain.toNat + 4 * cfg.restActive.toNat + 8 * cfg.readback.toNat
      + 16 * cfg.safeOnLease.toNat + 32 * match cfg.safeLevel with | .released => 0 | .inactive => 1 | .active => 2) := by
  unfold LineConfig.byteA
  cases cfg.safeLevel <;> rfl

theorem Channel.windowBytes_eq : ch.windowBytes = natBytes2 (match ch.armed with
    | some ⟨_, some n, _⟩ => (n + 7999) / 8000
    | _ => 0) := by
  unfold Channel.windowBytes
  rcases ch.armed with _ | ⟨_, _ | n, _⟩ <;> rfl

theorem stopByte_eq (stop : Option PendingStop) (requested : Bool) : stopByte stop requested = byteOf ((match stop with
    | none => 0
    | some p => (match p.boundary with | .passEnd => 1 | .stepEnd => 2 | .now => 3)
        + 16 * match p.outcome with | .stopped => 2 | .preempted => 3) + 4 * requested.toNat) := by
  unfold stopByte
  rcases stop with _ | ⟨b, o⟩
  · rfl
  · cases b <;> cases o <;> rfl

theorem attachByte_eq (x : Option Attachment) : attachByte x = byteOf (match x with
    | none => 0 | some ⟨g, .opening⟩ => 16 + g.val | some ⟨g, .opened⟩ => 32 + g.val) := by
  rcases x with _ | ⟨g, _ | _⟩ <;> rfl

theorem Channel.activeBytes_eq : ch.activeBytes = match ch.active with
    | none => []
    | some a =>
      halfBytes a.job.number ++ [byteOf (a.job.priority.val * 32 + a.job.pattern.val),
        byteOf (a.job.flags.preempt.toNat + 2 * a.job.flags.reportStart.toNat + 4 * a.job.flags.reportEnd.toNat
          + 8 * a.job.flags.marks.toNat),
        byteOf a.stepIndex, a.passes,
        byteOf ((match a.stop with
          | none => 0
          | some p => (match p.boundary with | .passEnd => 1 | .stepEnd => 2 | .now => 3)
              + 16 * match p.outcome with | .stopped => 2 | .preempted => 3) + 4 * ch.holdRequest.toNat),
        byteOf (match a.attach with
          | none => 0 | some ⟨g, .opening⟩ => 16 + g.val | some ⟨g, .opened⟩ => 32 + g.val)]
      ++ wordBytes (BitVec.ofNat 32 (a.remaining / 8
        + if a.remaining % 8 ≠ 0 ∧ Config.roundMicrosUp a.remaining = true then 1 else 0))
      ++ [byteOf (match ch.waitTimer with | some n => (n + 7999) / 8000 | none => 0)] := by
  unfold Channel.activeBytes
  cases ch.active with
  | none => rfl
  | some a =>
    dsimp only
    rw [micros_eq, stopByte_eq, attachByte_eq]
    cases ch.waitTimer <;> rfl

theorem Job.queueBytes_eq (j : Job) : j.queueBytes = halfBytes j.number ++ [byteOf (j.priority.val * 32 + j.pattern.val),
      byteOf ((match j.start with
        | .now => 0
        | .go => 1
        | .sense l e => 128 + 8 * (match e with | .rise => 1 | .fall => 2 | .either => 3) + l.val)
        + if j.override.isSome then 64 else 0)]
    ++ halfBytes j.window ++ [match j.override with | some r => r | none => 0x00#8] := by
  have hcond : j.conditionByte = byteOf ((match j.start with
        | .now => 0
        | .go => 1
        | .sense l e => 128 + 8 * (match e with | .rise => 1 | .fall => 2 | .either => 3) + l.val)
        + if j.override.isSome then 64 else 0) := by
    unfold Job.conditionByte
    rcases j.start with _ | ⟨l, e⟩ | _
    · rfl
    · cases e <;> rfl
    · rfl
  unfold Job.queueBytes
  rw [hcond]
  cases j.override <;> rfl

end Status

section CarStatus

variable (s : State)

/-- The number of users of a generator. -/
theorem State.users_length (g : GenId) : (s.users g).length
    = (List.finRange 8).countP fun d : Chan => decide (((s.chan d).attachment.map Attachment.gen) = some g) := by
  rw [List.countP_eq_length_filter, State.users, chansWith]
  congr 1
  refine List.filter_congr fun d _ => ?_
  rw [Bool.eq_iff_iff, decide_eq_true_iff, ← State.mem_users, State.users, chansWith, List.mem_filter]
  simp

theorem State.genBytes_eq (g : GenId) : s.genBytes g
    = [match s.gen g with | .free => 0x00#8 | .running _ _ _ => 0x01#8 | .draining _ _ _ => 0x02#8,
        match (s.gen g).cls with | some k => byteOf k.val | none => 0xFF#8,
        byteOf ((List.finRange 8).countP fun d : Chan => decide (((s.chan d).attachment.map Attachment.gen) = some g)),
        maskOf fun d => decide ((s.chan d).attachment = some ⟨g, .opened⟩),
        maskOf fun d => decide ((s.chan d).attachment = some ⟨g, .opening⟩)]
      ++ natBytes2 (match (s.gen g).cls with
        | none => 0
        | some k => if (match s.carrierClass k with | some x => x.period | none => 0) ≤ (s.gen g).phase then 0
          else (s.gen g).phase) := by
  rw [← s.users_length g]
  unfold State.genBytes State.cycleDue
  cases s.gen g with
  | free => rfl
  | running k phase high | draining k phase high =>
    simp only [Gen.cls, decide_eq_true_eq]
    rfl

theorem State.waiterBytes_eq (w : Waiter) : s.waiterBytes w = [byteOf w.chan.val, byteOf w.cls.val,
    byteOf (match (s.chan w.chan).waitTimer with | some n => (n + 7999) / 8000 | none => 0)] := by
  unfold State.waiterBytes
  cases (s.chan w.chan).waitTimer <;> rfl

theorem State.classBytes_eq (k : Cls) : s.classBytes k = match s.carrierClass k with
    | some x => 0x01#8 :: (natBytes2 x.period ++ natBytes2 x.high)
    | none => [0x00#8, 0x00#8, 0x00#8, 0x00#8, 0x00#8] := by
  unfold State.classBytes
  cases s.carrierClass k <;> rfl

end CarStatus

/-- Settles O37: each of the commands answers the bytes of its layout, field by field, and writes nothing. -/
theorem reportingCommands : Obligations.ReportingCommands := by
  intro s v channel c hs hc
  refine ⟨fun hx => ?lines, fun hx => ?chStatus, fun hx => ?carStatus, fun hx => ?classes⟩
  case lines =>
    have hi : Instr.request (.lines v) = some (v, .lines) := rfl
    obtain ⟨t, ht⟩ := exec_next hi trivial hx
    refine ⟨t, ht, answered_unchanged hs hi trivial hx ht (congrArg (answerOk s) (congrArg (· ++ _) ?_))⟩
    exact congrArg (List.flatMap · (List.finRange 8)) (funext fun d => congrArg (· :: _) (byteOf_driven_code _))
  case chStatus =>
    have hi : Instr.request (.chStatus v channel) = some (v, .chStatus channel) := rfl
    obtain ⟨t, ht⟩ := exec_next hi trivial hx
    have hown : owner (.chStatus channel) v.tag s = answerOk s (s.chan c).statusBytes := by
      simp only [owner, ownerChStatus, index?_of_toNat hc.symm]
    refine ⟨t, ht, answered_unchanged hs hi trivial hx ht (hown.trans (congrArg (answerOk s) ?_))⟩
    rw [Channel.statusBytes, Channel.stateByte_eq, LineConfig.byteA_eq, Channel.windowBytes_eq, Channel.activeBytes_eq,
      funext Job.queueBytes_eq] <;> rfl
  case carStatus =>
    have hi : Instr.request (.carStatus v 0x00#8) = some (v, .carStatus 0x00#8) := rfl
    obtain ⟨t, ht⟩ := exec_next hi trivial hx
    refine ⟨t, ht, answered_unchanged hs hi trivial hx ht (congrArg (fun x => answerOk s (0x00#8 :: x)) ?_)⟩
    rw [funext s.genBytes_eq, funext s.waiterBytes_eq] <;> rfl
  case classes =>
    have hi : Instr.request (.carStatus v 0x01#8) = some (v, .carStatus 0x01#8) := rfl
    obtain ⟨t, ht⟩ := exec_next hi trivial hx
    refine ⟨t, ht, answered_unchanged hs hi trivial hx ht (congrArg (fun x => answerOk s (0x01#8 :: x)) ?_)⟩
    rw [funext s.classBytes_eq] <;> rfl

end Sys2Proof.Machine
end

section
/-! PROOFS. The queue of the machine, one reference clock, the hardware reset, the state after reset, and the check value of the CRC. -/

namespace Sys2Proof.Machine

variable {s t : State}

/-- Settles O1: `step` says this of a queue with a front. -/
theorem stepTakesTheFront : Obligations.StepTakesTheFront :=
  fun _ _ _ => rfl

/-- Settles O53: the CRC computed over the nine characters. -/
theorem crcCheckValue : Obligations.CrcCheckValue := by
  simp [Obligations.CrcCheckValue, crc16, crcByte, crcShifts, crcShift]

/-! ### The part after a hardware reset (R165) -/

section Reset

variable (a : BitVec 4) (r : BitVec 2) (x : BitVec 8)

@[simp] theorem State.entry_hardReset (s : State) (p : PatId) : (s.hardReset a r x).entry p = .free := by
  simp [State.hardReset, State.afterReset, State.entry, PatternTable.reset]

@[simp] theorem State.chan_hardReset (s : State) (c : Chan) : (s.hardReset a r x).chan c = Channel.empty .off .default := by
  simp [State.hardReset, State.afterReset, State.chan]

@[simp] theorem State.gen_hardReset (s : State) (g : GenId) : (s.hardReset a r x).gen g = .free := by
  simp [State.hardReset, State.afterReset, State.gen, Carriers.reset]

@[simp] theorem State.carrierClass_hardReset (s : State) (k : Cls) : (s.hardReset a r x).carrierClass k = none := by
  simp [State.hardReset, State.afterReset, State.carrierClass, Carriers.reset]

@[simp] theorem State.senseLine_hardReset (s : State) (l : Line) :
    (s.hardReset a r x).senseLine l = SenseLine.reset (x.getLsbD l.val) := by
  simp [State.hardReset, State.afterReset, State.senseLine, SenseUnit.reset]

/-- Every channel is OFF after a hardware reset, and so every line is released. -/
theorem State.settled_hardReset (s : State) : (s.hardReset a r x).Settled := by
  refine ⟨rfl, fun c => ?_, rfl⟩
  rw [State.drivenLevel_of_off (by simp [Channel.empty])]
  simp [State.hardReset, State.afterReset]

/-- The part right after reset is one that a hardware reset leaves. -/
theorem State.reset_eq : State.reset = State.reset.hardReset 0#4 0#2 0x00#8 := rfl

end Reset

/-- Settles O3: the reset values, block by block. -/
theorem hardwareReset : Obligations.HardwareReset := by
  intro a r x s
  refine ⟨s.hardReset a r x, rfl, s.entry_hardReset a r x, rfl, s.chan_hardReset a r x, rfl, s.carrierClass_hardReset a r x,
    s.gen_hardReset a r x, rfl, fun c => ?_, s.senseLine_hardReset a r x, rfl, rfl, rfl, rfl, s.settled_hardReset a r x⟩
  simp [State.hardReset, State.afterReset]

/-! ### The invariants in the state after reset -/

theorem State.channelsOk_of_empty (h : ∀ c, s.chan c = Channel.empty .off (s.chan c).config) : s.ChannelsOk := fun c => by
  rw [h c]
  exact ⟨⟨rfl, rfl⟩, by simp [Channel.empty]⟩

/-- Settles O4: after reset every channel is OFF and holds nothing, every entry and every generator is FREE, and nothing waits. -/
theorem invariantsHoldAtReset : Obligations.InvariantsHoldAtReset := by
  have hchan (c : Chan) : State.reset.chan c = Channel.empty .off .default := State.chan_hardReset _ _ _ State.reset c
  have hgen (g : GenId) : State.reset.gen g = .free := State.gen_hardReset _ _ _ State.reset g
  have hjobs : State.reset.JobsOk True := State.jobsOk_hardReset State.reset _ _ _
  refine ⟨ReportUnit.reset_ok, PatternTable.reset_ok, fun k x hx => ?classes, .of_free hgen rfl, hjobs.1, hjobs.2 trivial,
    State.channelsOk_of_empty fun c => by rw [hchan]; rfl, ⟨fun w hw => absurd hw List.not_mem_nil, List.nodup_nil⟩, ⟨fun c hc => ?safe, fun hl => ?flagged⟩,
    fun p => ?refs, ⟨fun g _ => ?idle, fun g hg => ?busy, fun c hc => ?places⟩, State.settled_hardReset _ _ _ State.reset⟩
  case classes =>
    cases (State.carrierClass_hardReset _ _ _ State.reset k).symm.trans hx
  case safe => rw [hchan] at hc; cases hc
  case flagged => cases hl
  case refs =>
    have hn (c : Chan) : (State.reset.chan c).naming p = 0 := by rw [hchan]; rfl
    rw [show State.reset.entry p = .free from State.entry_hardReset _ _ _ State.reset p, State.naming]
    simp only [hn]
    rfl
  case idle =>
    rw [State.users_eq_nil]
    intro d
    rw [hchan]
    exact Option.some_ne_none g |>.symm
  case busy => rw [hgen] at hg; cases hg
  case places => rw [hchan] at hc; cases hc

/-! ### One reference clock (section 0.3) -/

section Due

variable {i : Instr}

/-- An event is on the queue if what makes it due holds. -/
theorem eventIf_of_iff {due : Bool} {p : Prop} [Decidable p] (h : due = true ↔ p) : eventIf due i = if p then [i] else [] := by
  unfold eventIf
  simp only [h]

variable (s)

theorem State.loadExpired_iff : s.loadExpired = true ↔ s.ptab.load.map Load.remaining = some 0 := by
  unfold State.loadExpired
  cases s.ptab.load <;> simp

/-- A channel's events, by its timers and by its active job. -/
theorem State.channelEvents_perm (c : Chan) : (s.channelEvents c).Perm
    ((if (s.chan c).state = .armed ∧ (s.chan c).armed.bind ArmedHead.window = some 0 then [.triggerWindowExpiry c] else [])
      ++ (if (s.chan c).state = .carrierWait ∧ (s.chan c).waitTimer = some 0 then [.carrierWaitExpiry c] else [])
      ++ match (s.chan c).active with
        | none => []
        | some a =>
          (if (s.chan c).state = .playing ∧ a.attach = none ∧ a.clock = .running ∧ a.remaining = 0 then [.stepEnd c] else [])
          ++ if (s.chan c).state = .playing ∧ a.attach = none ∧ a.clock = .running ∧ a.sampleDue = true ∧ a.remaining = 80
            then [.readbackSample c (s.outLevels.getLsbD c.val)] else []) := by
  have hwindow : (s.chan c).windowExpired = true ↔ (s.chan c).state = .armed ∧ (s.chan c).armed.bind ArmedHead.window = some 0 := by
    simp [Channel.windowExpired]
  have hwait : (s.chan c).waitExpired = true ↔ (s.chan c).state = .carrierWait ∧ (s.chan c).waitTimer = some 0 := by
    simp [Channel.waitExpired]
  unfold State.channelEvents
  rw [eventIf_of_iff hwindow, eventIf_of_iff hwait]
  cases ha : (s.chan c).active with
  | none =>
    rw [Channel.stepExpired, ha, Channel.readbackDue, ha]
    simp [eventIf]
  | some a =>
    have hstep : (s.chan c).stepExpired = true
        ↔ (s.chan c).state = .playing ∧ a.attach = none ∧ a.clock = .running ∧ a.remaining = 0 := by
      simp [Channel.stepExpired, ha, and_assoc]
    have hread : (s.chan c).readbackDue = true
        ↔ (s.chan c).state = .playing ∧ a.attach = none ∧ a.clock = .running ∧ a.sampleDue = true ∧ a.remaining = 80 := by
      simp only [Channel.readbackDue, ha, Bool.and_eq_true, decide_eq_true_iff, Option.isNone_iff_eq_none, and_assoc]
      exact Iff.rfl
    rw [eventIf_of_iff hstep, eventIf_of_iff hread, List.append_assoc, List.append_assoc, List.append_assoc]
    refine List.Perm.append_left _ ?_
    rw [← List.append_assoc, ← List.append_assoc]
    exact List.perm_append_comm.append_right _

theorem State.highOf_eq (k : Cls) : s.highOf k = ((s.carrierClass k).getD ⟨0, 0⟩).high := by
  unfold State.highOf
  cases s.carrierClass k <;> rfl

theorem State.periodOf_eq (k : Cls) : s.periodOf k = ((s.carrierClass k).getD ⟨0, 0⟩).period := by
  unfold State.periodOf
  cases s.carrierClass k <;> rfl

/-- A generator's events, by its phase and its class. -/
theorem State.genEvents_eq (g : GenId) : s.genEvents g = match (s.gen g).cls with
    | none => []
    | some k =>
      (if (s.gen g).inHigh = true ∧ ((s.carrierClass k).getD ⟨0, 0⟩).high ≤ (s.gen g).phase then [.highPortionEnd g] else [])
      ++ if ((s.carrierClass k).getD ⟨0, 0⟩).period ≤ (s.gen g).phase then [.cycleEnd g] else [] := by
  unfold State.genEvents
  cases hk : (s.gen g).cls with
  | none => rw [State.highDue, hk, State.cycleDue, hk]; rfl
  | some k =>
    have hhigh : s.highDue g = true ↔ (s.gen g).inHigh = true ∧ ((s.carrierClass k).getD ⟨0, 0⟩).high ≤ (s.gen g).phase := by
      simp only [State.highDue, hk, State.highOf_eq, Bool.and_eq_true, decide_eq_true_eq]
    have hcycle : s.cycleDue g = true ↔ ((s.carrierClass k).getD ⟨0, 0⟩).period ≤ (s.gen g).phase := by
      simp only [State.cycleDue, hk, State.periodOf_eq, decide_eq_true_eq]
    rw [eventIf_of_iff hhigh, eventIf_of_iff hcycle]

theorem ReportUnit.ageEvent_eq (u : ReportUnit) : eventIf u.ageDue .holdAgeReached = match u.queue[u.batchSize]? with
    | none => []
    | some r => if u.holdTime ≠ 0x00#8 ∧ u.ageReached = false ∧ u.holdTime.toNat * 1000 ≤ (u.partTime - r.report.time).toNat
      then [.holdAgeReached] else [] := by
  cases h : u.queue[u.batchSize]? with
  | none => rw [ageDue, reckonAge_of_none h, Bool.and_false]; rfl
  | some r =>
    refine eventIf_of_iff ?_
    rw [ageDue_of_oldest h]
    simp only [Bool.and_eq_true, Bool.not_eq_true', decide_eq_true_eq]
    exact and_left_comm

theorem HostLink.gapEvent_eq (l : HostLink) : eventIf l.gapDue .gapAbort = match l.gap with
    | none => []
    | some n => if 3 * 10 * 8000000 ≤ n * lineRate l.rate then [.gapAbort] else [] := by
  unfold HostLink.gapDue
  cases l.gap with
  | none => rfl
  | some n => exact eventIf_of_iff decide_eq_true_iff

theorem HostLink.replyEvent_eq (l : HostLink) (pins : BitVec 8) : eventIf l.replyDue (.replyEnd pins) = match l.sending with
    | none => []
    | some x => if x.bytes.length * 10 * 8000000 ≤ x.elapsed * lineRate l.rate then [.replyEnd pins] else [] := by
  unfold HostLink.replyDue
  cases l.sending with
  | none => rfl
  | some x => exact eventIf_of_iff decide_eq_true_iff

end Due

/-- A channel's timers count by one clock: the step clock while it runs, the armed head's window while the channel is ARMED. -/
theorem Channel.tick_eq (ch : Channel) : ch.tick = { ch with
    active := ch.active.map fun a => if a.clock = .running then { a with remaining := a.remaining - 1 } else a
    armed := ch.armed.map fun h => { h with window := if ch.state = .armed then h.window.map (· - 1) else h.window, fresh := false }
    waitTimer := ch.waitTimer.map (· - 1) } := by
  have h : ArmedHead.tick (decide (ch.state = .armed)) = fun h =>
      { h with window := if ch.state = .armed then h.window.map (· - 1) else h.window, fresh := false } := by
    funext h
    simp only [ArmedHead.tick, decide_eq_true_eq]
  rw [Channel.tick, h]
  rfl

/-- Settles O2: every timer counts by one clock, and the events that are then due wait in a free order. -/
theorem oneReferenceClock : Obligations.OneReferenceClock := by
  intro s hq
  obtain ⟨n, q, e⟩ := s.tick_eq
  have hpend : q.Perm s.advance.dueEvents := by
    have hp : s.tick.pending.Perm s.advance.dueEvents := State.ordered_perm _ _
    rwa [e] at hp
  have hchan (c : Chan) : s.tick.chan c = (s.chan c).tick := by rw [e]; exact State.chan_advance s c
  have hgen (g : GenId) : s.tick.gen g = (s.gen g).tick := by rw [e]; exact State.gen_advance s g
  refine ⟨s.tick, by rw [step, hq], ?_⟩
  refine ⟨by rw [e]; rfl, by rw [e]; rfl, fun m hm => by rw [e]; simp [State.advance, hm, LeaseState.tick], fun hm => ?lease,
    by rw [e]; rfl, fun p m hm => by rw [e]; simp [State.advance, hm, Load.tick], fun hm => by rw [e]; simp [State.advance, hm],
    fun c => (hchan c).trans (Channel.tick_eq _), by rw [e]; rfl, by rw [e]; rfl, fun g => ?gen, by rw [e]; rfl, by rw [e]; rfl, by rw [e]; rfl, by rw [e]; rfl,
    by rw [e]; rfl, by rw [e]; rfl, by rw [e]; rfl, ?due⟩
  case lease => rw [e]; rcases hm with hm | hm <;> simp [State.advance, hm, LeaseState.tick]
  case gen =>
    rw [hgen]
    cases s.gen g <;> exact ⟨rfl, rfl, rfl, rfl⟩
  case due =>
    dsimp only
    have hsame : s.advance.dueEvents = s.tick.dueEvents := by rw [e]; rfl
    rw [show s.tick.pending = q by rw [e]]
    refine hpend.trans ?_
    rw [hsame]
    generalize s.tick = t
    refine .append (.append (.append (.append (.append (.append (.append (.of_eq ?_) ?_) (.of_eq ?_)) (.of_eq ?_)) (.of_eq ?_)) (.of_eq ?_))
      (.of_eq ?_)) (.of_eq ?_)
    · exact eventIf_of_iff t.loadExpired_iff
    · exact List.Perm.flatMap_left _ fun c _ => t.channelEvents_perm c
    · exact List.flatMap_congr fun g _ => t.genEvents_eq g
    · exact eventIf_of_iff decide_eq_true_iff
    · exact t.rpt.ageEvent_eq
    · exact eventIf_of_iff decide_eq_true_iff
    · exact t.link.gapEvent_eq
    · exact t.link.replyEvent_eq _

end Sys2Proof.Machine
end

section
/-! PROOFS. The receiver of the host link (R151 to R154): what it does with a character in each of its states, and a frame received byte by
byte. -/

namespace Sys2Proof.Machine

variable {s t : State}

/-! ### An event that writes LINK alone -/

/-- The lines and ATTN_N do not read LINK. -/
theorem State.Settled.link (hs : s.Settled) (l : HostLink) : ({ s with link := l } : State).Settled :=
  ⟨hs.outbox, fun c => hs.outs c, hs.attention⟩

theorem State.Settled.settle_link (hs : s.Settled) (l : HostLink) : State.settle { s with link := l } = { s with link := l } :=
  State.settle_of_settled _ (hs.link l)

/-- The part with the receiver in a state and the gap timed or not. -/
def State.listening (s : State) (x : Receiver) (gap : Option Nat) : State :=
  { s with link := { s.link with receiver := x, gap := gap } }

theorem State.listening_self (s : State) : s.listening s.link.receiver s.link.gap = s := rfl

theorem State.receive_hunt (s : State) : s.receive .hunt = s.listening .hunt none := rfl

theorem State.receive_of_ne {x : Receiver} (h : x ≠ .hunt) : s.receive x = s.listening x (some 0) := by
  rw [State.receive, if_neg h]
  rfl

theorem State.abortFrame_eq (s : State) (f : Counters → Counters) : s.abortFrame f
    = { s with link := { s.link with receiver := .hunt, gap := none, counters := f s.link.counters } } := rfl

/-! ### A good character by the receiver's state (R151) -/

section Byte

variable {b : Byte} {unit tag code : Byte} {got payload : List Byte} {n : Nat}

theorem State.receiveByte_start (h : s.link.receiver = .hunt) (hb : b = 0xC3#8) :
    s.receiveByte b = s.listening (.header []) (some 0) := by
  rw [State.receiveByte, h, ← State.receive_of_ne (by simp)]
  exact if_pos hb

theorem State.receiveByte_ignored (h : s.link.receiver = .hunt) (hb : b ≠ 0xC3#8) : s.receiveByte b = s := by
  rw [State.receiveByte, h]
  exact if_neg hb

/-- The unit, tag and code bytes. -/
theorem State.receiveByte_header (h : s.link.receiver = .header got) (hl : got.length < 3) :
    s.receiveByte b = s.listening (.header (got ++ [b])) (some 0) := by
  rw [State.receiveByte, h, ← State.receive_of_ne (by simp)]
  rcases got with _ | ⟨_, _ | ⟨_, _ | ⟨_, _⟩⟩⟩
  all_goals first
    | rfl
    | simp at hl
      omega

/-- A length byte of 0. -/
theorem State.receiveByte_noPayload (h : s.link.receiver = .header [unit, tag, code]) (hb : b = 0x00#8) :
    s.receiveByte b = s.listening (.check unit tag code [] none) (some 0) := by
  subst hb
  rw [State.receiveByte, h, ← State.receive_of_ne (by simp)]
  rfl

theorem State.receiveByte_length (h : s.link.receiver = .header [unit, tag, code]) (h1 : 1 ≤ b.toNat) (h48 : b.toNat ≤ 48) :
    s.receiveByte b = s.listening (.payload unit tag code b.toNat []) (some 0) := by
  have hb : b ≠ 0x00#8 := by rintro rfl; simp at h1
  rw [State.receiveByte, h, ← State.receive_of_ne (by simp)]
  exact (if_neg h48.not_gt).trans (if_neg hb)

theorem State.receiveByte_oversize (h : s.link.receiver = .header [unit, tag, code]) (hb : 48 < b.toNat) :
    s.receiveByte b = s.abortFrame fun x => { x with oversize := countUp x.oversize } := by
  rw [State.receiveByte, h]
  exact if_pos hb

theorem State.receiveByte_payload (h : s.link.receiver = .payload unit tag code n got) (hn : got.length + 1 < n) :
    s.receiveByte b = s.listening (.payload unit tag code n (got ++ [b])) (some 0) := by
  rw [State.receiveByte, h, ← State.receive_of_ne (by simp)]
  exact if_pos hn

/-- The last payload byte. -/
theorem State.receiveByte_lastPayload (h : s.link.receiver = .payload unit tag code n got) (hn : n = got.length + 1) :
    s.receiveByte b = s.listening (.check unit tag code (got ++ [b]) none) (some 0) := by
  rw [State.receiveByte, h, ← State.receive_of_ne (by simp)]
  exact if_neg (by omega)

theorem State.receiveByte_crcHigh (h : s.link.receiver = .check unit tag code payload none) :
    s.receiveByte b = s.listening (.check unit tag code payload (some b)) (some 0) := by
  rw [State.receiveByte, h, ← State.receive_of_ne (by simp)]

/-- The last byte of a frame. -/
theorem State.receiveByte_crcLow {high : Byte} (h : s.link.receiver = .check unit tag code payload (some high)) :
    s.receiveByte b = (s.receive .hunt).decideFrame ⟨unit, tag, code, payload, joinHalf high b⟩ := by
  rw [State.receiveByte, h]

/-- A character with a low stop bit (R152). -/
theorem State.receiveBad_hunt (h : s.link.receiver = .hunt) : s.receiveBad = s := by
  rw [State.receiveBad, h]

theorem State.receiveBad_of_ne (h : s.link.receiver ≠ .hunt) :
    s.receiveBad = s.abortFrame fun x => { x with framing := countUp x.framing } := by
  unfold State.receiveBad
  split
  next hr => exact absurd hr h
  next => rfl

end Byte

/-! ### The statements -/

/-- CHARACTER_RECEIVED answers what the receiver makes of the character. -/
theorem exec_good (b : Byte) (s : State) : exec (.characterReceived b true) s = .next (s.receiveByte b).settle := rfl

theorem exec_bad (b : Byte) (s : State) : exec (.characterReceived b false) s = .next s.receiveBad.settle := rfl

/-- A character that changes LINK alone. -/
theorem exec_good_of_link (hs : s.Settled) {b : Byte} {l : HostLink} (h : s.receiveByte b = { s with link := l }) :
    exec (.characterReceived b true) s = .next { s with link := l } := by
  rw [exec_good, h, hs.settle_link]

theorem exec_bad_of_link (hs : s.Settled) {b : Byte} {l : HostLink} (h : s.receiveBad = { s with link := l }) :
    exec (.characterReceived b false) s = .next { s with link := l } := by
  rw [exec_bad, h, hs.settle_link]

/-- Settles O52: the receiver's work state by state; each answer differs in LINK alone, so the end of the event changes nothing. -/
theorem receiverWork : Obligations.ReceiverWork := by
  intro s b hs
  refine ⟨fun h => ⟨fun hb => exec_good_of_link hs (State.receiveByte_start h hb), fun hb => ?ignored, ?bad⟩,
    fun got h hl => exec_good_of_link hs (State.receiveByte_header h hl),
    fun unit tag code h => ⟨fun hb => exec_good_of_link hs (State.receiveByte_noPayload h hb),
      fun h1 h48 => exec_good_of_link hs (State.receiveByte_length h h1 h48),
      fun hb => exec_good_of_link hs (State.receiveByte_oversize h hb)⟩,
    fun unit tag code n got h => ⟨fun hn => exec_good_of_link hs (State.receiveByte_payload h hn),
      fun hn => exec_good_of_link hs (State.receiveByte_lastPayload h hn)⟩,
    fun unit tag code payload h => exec_good_of_link hs (State.receiveByte_crcHigh h),
    fun h => exec_bad_of_link hs (State.receiveBad_of_ne h), ?startBit, ?gap⟩
  case ignored => rw [exec_good, State.receiveByte_ignored h hb, s.settle_of_settled hs]
  case bad => rw [exec_bad, State.receiveBad_hunt h, s.settle_of_settled hs]
  case startBit => exact congrArg _ (hs.settle_link _)
  case gap =>
    obtain ⟨t, ht, hearly, hdue⟩ := runEvent_next s.link.gapDue (fun t => t.abortFrame fun x => { x with gap := countUp x.gap }) s
    refine ⟨t, ht, fun hno => hearly (by simp only [HostLink.gapDue, hno]), fun n hn => ⟨fun hlt => hearly ?_, fun hle => ?_⟩⟩
    · simp only [HostLink.gapDue, hn]
      exact decide_eq_false hlt.not_ge
    · refine (hdue ?_).trans (hs.settle_link _)
      simp only [HostLink.gapDue, hn]
      exact decide_eq_true hle

/-! ### A frame byte by byte -/

theorem execAll_cons {i : Instr} {rest : List Instr} (h : exec i s = .next t) : execAll (i :: rest) s = execAll rest t := by
  rw [execAll, h]

/-- The rows that receive some bytes. -/
def characters (bytes : List Byte) : List Instr :=
  bytes.map fun b => .characterReceived b true

theorem execAll_characters_cons {b : Byte} {rest : List Byte} (hs : s.Settled) {x y : Receiver} {g gap : Option Nat}
    (h : (s.listening x g).receiveByte b = (s.listening x g).listening y gap) :
    execAll (characters (b :: rest)) (s.listening x g) = execAll (characters rest) (s.listening y gap) :=
  execAll_cons (exec_good_of_link (hs.link _) h)

/-- The payload bytes that are still to come, from the bytes got already. -/
theorem execAll_payload (hs : s.Settled) (unit tag code : Byte) (more : List Byte) : ∀ (b : Byte) (rest got : List Byte) (g : Option Nat),
    execAll (characters (b :: rest ++ more)) (s.listening (.payload unit tag code (got.length + (b :: rest).length) got) g)
      = execAll (characters more) (s.listening (.check unit tag code (got ++ b :: rest) none) (some 0)) := by
  intro b rest
  induction rest generalizing b with
  | nil =>
    intro got g
    exact execAll_characters_cons hs (State.receiveByte_lastPayload rfl rfl)
  | cons x rest ih =>
    intro got g
    have hn : got.length + (b :: x :: rest).length = (got ++ [b]).length + (x :: rest).length := by
      simp only [List.length_append, List.length_cons, List.length_nil]
      omega
    have hgot : got ++ b :: x :: rest = got ++ [b] ++ x :: rest := by simp
    rw [hn, hgot]
    exact (execAll_characters_cons hs (State.receiveByte_payload rfl (by simp))).trans (ih x (got ++ [b]) (some 0))

/-- The unit, tag and code bytes. -/
theorem execAll_header (hs : s.Settled) (unit tag code : Byte) (more : List Byte) (g : Option Nat) :
    execAll (characters (unit :: tag :: code :: more)) (s.listening (.header []) g)
      = execAll (characters more) (s.listening (.header [unit, tag, code]) (some 0)) := by
  rw [execAll_characters_cons hs (State.receiveByte_header rfl (by simp)), execAll_characters_cons hs (State.receiveByte_header rfl (by simp)),
    execAll_characters_cons hs (State.receiveByte_header rfl (by simp))]
  rfl

/-- The two bytes of the CRC. -/
theorem execAll_crc (hs : s.Settled) (f : Frame) (g : Option Nat) : execAll (characters [f.crc.extractLsb' 8 8, f.crc.extractLsb' 0 8])
    (s.listening (.check f.unitByte f.tag f.code f.payload none) g) = .next ((s.receive .hunt).decideFrame f).settle := by
  refine (execAll_characters_cons hs (State.receiveByte_crcHigh rfl)).trans ((execAll_cons (exec_good _ _)).trans ?_)
  rw [State.receiveByte_crcLow rfl, joinHalf_split]
  rfl

/-- Settles O54: the header, the payload and the CRC are taken byte by byte, and the last byte decides the frame that they spell. -/
theorem frameBytesAreReceived : Obligations.FrameBytesAreReceived := by
  intro s ⟨unit, tag, code, payload, crc⟩ hs hr hl
  change execAll (characters _) (s.listening s.link.receiver s.link.gap) = .next ((s.receive .hunt).decideFrame _).settle
  rw [execAll_characters_cons hs (State.receiveByte_start hr rfl), execAll_header hs]
  cases payload with
  | nil => exact (execAll_characters_cons hs (State.receiveByte_noPayload rfl rfl)).trans (execAll_crc hs ⟨unit, tag, code, [], crc⟩ _)
  | cons b rest =>
    have hlen : (byteOf (b :: rest).length).toNat = (b :: rest).length := by
      rw [byteOf, BitVec.toNat_ofNat, Nat.mod_eq_of_lt (by dsimp only at hl; omega)]
    refine (execAll_characters_cons hs (State.receiveByte_length rfl (by rw [hlen]; simp) (by rw [hlen]; exact hl))).trans ?_
    have h := execAll_payload hs unit tag code [crc.extractLsb' 8 8, crc.extractLsb' 0 8] b rest [] (some 0)
    rw [List.length_nil, Nat.zero_add] at h
    rw [hlen]
    exact h.trans (execAll_crc hs ⟨unit, tag, code, b :: rest, crc⟩ _)

end Sys2Proof.Machine
end

section
/-! PROOFS. Refused commands (R169, R170): every answer is OK or leaves the state as it was, and every field out of range is refused. -/

namespace Sys2Proof.Machine

variable {s t : State}

/-! ### The status of an answer (R168, R170) -/

/-- An answer is OK, or it refuses the command and leaves the state as it was. -/
def Answer.Plain (s : State) (a : Answer) : Prop :=
  (∃ fields, a.payload = statusOk :: fields) ∨ ∃ (status : Status) (more : List Byte), a = ⟨s, status.code :: more, none⟩

theorem Answer.plain_ok (s t : State) (fields : List Byte) (reset : Option Scope) : Answer.Plain s ⟨t, statusOk :: fields, reset⟩ :=
  .inl ⟨fields, rfl⟩

theorem Answer.plain_refuse (s : State) (status : Status) : Answer.Plain s (refuse s status) :=
  .inr ⟨status, [], rfl⟩

theorem Answer.plain_refuseSequence (s : State) (n : Nat) : Answer.Plain s (refuseSequence s n) :=
  .inr ⟨.sequence, _, rfl⟩

theorem appendSteps_plain (id : PatId) (first : Nat) (new : List Step) (h : Header) (steps : List Step) (s : State) :
    Answer.Plain s (appendSteps id first new h steps s) := by
  unfold appendSteps
  split
  · exact Answer.plain_ok s _ _ _
  · split
    exacts [Answer.plain_ok s _ _ _, Answer.plain_refuseSequence s _]

/-- Every command is answered OK or refused: the checks of its execution stand before its effects (R169). -/
theorem owner_plain (r : Request) (tag : Byte) (s : State) : Answer.Plain s (owner r tag s) := by
  cases r
  all_goals
    simp only [owner, ownerIdent, ownerStatus, ownerReset, ownerLease, ownerRecover, ownerTime, ownerAttnConfig, ownerFetch, ownerAck,
      ownerPatOpen, ownerPatSteps, ownerPatSeal, ownerPatDiscard, ownerPatDelete, ownerPatInfo, ownerPatRead, ownerCarSet,
      ownerCarClear, ownerCarStatus, ownerChConfig, ownerChEnable, ownerChDisable, disableIdle, disableForce, ownerPlay,
      ownerCancel, ownerStop, ownerHold, ownerResume, ownerGo, ownerClearFault, ownerChStatus, ownerSnConfig, ownerLines]
    repeat' split
  all_goals first
    | exact Answer.plain_refuse s _
    | exact Answer.plain_refuseSequence s _
    | exact appendSteps_plain _ _ _ _ _ s
    | exact Answer.plain_ok s _ _ _

/-! ### LINK after an execution -/

/-- A command's execution leaves LINK alone, but for a STATUS that clears the counters. -/
theorem Executed.link (e : Executed s t) : t.link = s.link ∨ t = s.clearCounters := by
  cases e with
  | counters => exact .inr rfl
  | classCleared k _ => exact .inl ((effects_finishAll _ _ _).link.trans rfl)
  | evicted cs _ => exact .inl (effects_evictAll cs _ _ _ s).link
  | accepted c j _ => exact .inl (State.acceptPlay_link s c _)
  | cancelled c j _ => exact .inl (works_dropAndDecide c s j _).link
  | stopped cs _ w f => exact .inl ((effects_withdrawWaiters cs s).trans
      (effects_forEach _ _ _ fun c u => .of_works (works_stopChannel s.chan w f c u))).link
  | held cs => exact .inl (effects_forEach s cs _ fun c u => .of_works (works_holdChannel c u)).link
  | resumed cs => exact .inl (effects_forEach s cs _ fun c u => .of_works (works_resumeChannel c u)).link
  | started cs _ _ => exact .inl (effects_startHeads cs s).link
  | _ => exact .inl rfl

theorem Executed.address (e : Executed s t) : t.link.address = s.link.address := by
  rcases e.link with h | h <;> rw [h]
  rfl

/-- Settles O55: an answer whose status is not OK is a refusal, and a refusal writes nothing. -/
theorem refusedCommandsChangeNothing : Obligations.RefusedCommandsChangeNothing := by
  intro s i v r hs hi hr hx
  rcases owner_plain r v.tag s with ⟨fields, hok⟩ | ⟨status, more, hrefused⟩
  · refine ⟨_, statusOk, fields, none, exec_of_executes hi hr hx, ?_, fun h => absurd rfl h⟩
    rw [State.settle_link, hok]
    simp only [State.reply, State.send, State.cacheReply, replyBytes, commandFrame, (owner_executed s r v.tag).address, Option.map_some]
  · obtain ⟨t, ht, hlink, hkept⟩ := exec_refused hs hi hr hx hrefused
    exact ⟨t, status.code, more, none, ht, by rw [hlink]; rfl, fun _ => ⟨hlink, rfl, hkept⟩⟩

/-! ### Fields in range -/

section Fields

variable {b b' : Byte}

theorem index?_lt {n : Nat} {x : Fin n} (h : index? n b = some x) : b.toNat < n := by
  by_contra hle
  rw [index?_of_le (by omega)] at h
  cases h

theorem flag?_lt {f : Bool} (h : flag? b = some f) : b.toNat < 2 := by
  by_contra hle
  rw [flag?_of_le (by omega)] at h
  cases h

theorem selection?_lt {x : Selection} (h : selection? b = some x) : b.toNat < 4 := by
  by_contra hle
  rw [selection?_of_le (by omega)] at h
  cases h

theorem timeUnit?_lt {x : TimeUnit} (h : timeUnit? b = some x) : b.toNat < 4 := by
  unfold timeUnit? at h
  split at h <;> first | omega | cases h

theorem safeLevel?_lt {x : SafeLevel} (h : safeLevel? b = some x) : b.toNat < 3 := by
  unfold safeLevel? at h
  split at h <;> first | omega | cases h

theorem scope?_bounds {x : Scope} (h : scope? b = some x) : 1 ≤ b.toNat ∧ b.toNat < 3 := by
  unfold scope? at h
  split at h <;> first | omega | cases h

theorem edge?_bounds {x : EdgeSel} (h : edge? b = some x) : 1 ≤ b.toNat ∧ b.toNat < 4 := by
  unfold edge? at h
  split at h <;> first | omega | cases h

theorem stopWhen?_bounds {x : StopWhen} (h : stopWhen? b = some x) : 1 ≤ b.toNat ∧ b.toNat < 4 := by
  unfold stopWhen? at h
  split at h <;> first | omega | cases h

theorem toNat_of_eq_zero {w : Nat} {x : BitVec w} (h : x = 0#w) : x.toNat = 0 := by
  rw [h]
  simp

theorem finalAction?_bounds {x : FinalAction} (h : finalAction? b b' = some x) :
    b.toNat < 2 ∧ (b.toNat = 1 → b'.toNat < 32) ∧ (b.toNat = 0 → b'.toNat = 0) := by
  unfold finalAction? at h
  split at h
  · next h0 =>
    split at h
    · next hz => exact ⟨by omega, by omega, fun _ => toNat_of_eq_zero hz⟩
    · cases h
  · next h1 =>
    cases hi : index? 32 b' with
    | none => rw [hi] at h; cases h
    | some q => exact ⟨by omega, fun _ => index?_lt hi, by omega⟩
  · cases h

theorem stepKind?_bounds {n : Nat} {x : StepKind} (h : stepKind? n b = some x) :
    n < 4 ∧ (n = 2 → b.toNat < 8) ∧ (n ≠ 2 → b = 0x00#8) := by
  unfold stepKind? at h
  split at h
  case h_3 =>
    cases hi : index? 8 b with
    | none => rw [hi] at h; cases h
    | some k => exact ⟨by omega, fun _ => index?_lt hi, fun h2 => absurd rfl h2⟩
  case h_5 => cases h
  all_goals
    split at h
    · next hz => exact ⟨by omega, by omega, fun _ => hz⟩
    · cases h

theorem decodeStep?_bounds {r : RawStep} {x : Step} (h : decodeStep? r = some x) : r.duration ≠ 0#16 ∧ r.kindMark.toNat % 128 < 4 ∧
    (r.kindMark.toNat % 128 = 2 → r.cls.toNat < 8) ∧ (r.kindMark.toNat % 128 ≠ 2 → r.cls = 0x00#8) := by
  unfold decodeStep? at h
  split at h
  · cases h
  · next hd =>
    cases hk : stepKind? (r.kindMark.toNat % 128) r.cls with
    | none => rw [hk] at h; cases h
    | some k => exact ⟨hd, stepKind?_bounds hk⟩

theorem playStart?_bounds {start line edge : Byte} {window : Half} {x : StartCond} (h : playStart? start line edge window = some x) :
    start.toNat < 3 ∧ (start.toNat = 1 → line.toNat < 8 ∧ 1 ≤ edge.toNat ∧ edge.toNat < 4) ∧
      (start.toNat ≠ 1 → line.toNat = 0 ∧ edge.toNat = 0) ∧ (start.toNat = 0 → window.toNat = 0) := by
  unfold playStart? at h
  split at h
  · next h0 =>
    split at h
    · next hz => exact ⟨by omega, by omega, fun _ => ⟨toNat_of_eq_zero hz.1, toNat_of_eq_zero hz.2.1⟩, fun _ => toNat_of_eq_zero hz.2.2⟩
    · cases h
  · next h1 =>
    split at h
    · next hl he => exact ⟨by omega, fun _ => ⟨index?_lt hl, edge?_bounds he⟩, by omega, by omega⟩
    · cases h
  · next h2 =>
    split at h
    · next hz => exact ⟨by omega, by omega, fun _ => ⟨toNat_of_eq_zero hz.1, toNat_of_eq_zero hz.2⟩, by omega⟩
    · cases h
  · cases h

theorem playOverride?_bounds {x : Option Byte} (h : playOverride? b b' = some x) : b.toNat < 2 ∧ (b.toNat = 0 → b'.toNat = 0) := by
  unfold playOverride? at h
  split at h
  · next h0 =>
    split at h
    · next hz => exact ⟨by omega, fun _ => toNat_of_eq_zero hz⟩
    · cases h
  · next h1 => exact ⟨by omega, by omega⟩
  · cases h

theorem playFlags?_lt {x : JobFlags} (h : playFlags? b = some x) : b.toNat < 16 := by
  unfold playFlags? at h
  split at h
  · omega
  · cases h

end Fields

end Sys2Proof.Machine
end

section
/-! PROOFS. Every field of a command that is out of range, or inconsistent with another, is refused BAD_FIELD (R169). -/

namespace Sys2Proof.Machine

variable (s : State)

/-! ### The checks of the fields, command by command -/

theorem ownerStatus_badField {clear : Byte} (h : 2 ≤ clear.toNat) : ownerStatus clear s = refuse s .badField := by
  simp only [ownerStatus, flag?_of_le h]

theorem ownerReset_badField {scope : Byte} (h : scope.toNat = 0 ∨ 3 ≤ scope.toNat) : ownerReset scope s = refuse s .badField := by
  unfold ownerReset
  split
  · rfl
  · next hx => have := scope?_bounds hx; omega

theorem ownerFetch_badField {k tag : Byte} (h : k.toNat = 0 ∨ 5 ≤ k.toNat) : ownerFetch k tag s = refuse s .badField :=
  if_neg (by omega)

theorem ownerPatOpen_badField {p : OpenFields} (h : 32 ≤ p.id.toNat ∨ p.steps.toNat = 0 ∨ 65 ≤ p.steps.toNat ∨ 4 ≤ p.timeUnit.toNat ∨
    p.steps.toNat ≤ p.loopStart.toNat ∨ 2 ≤ p.finalAction.toNat ∨ (p.finalAction.toNat = 1 ∧ 32 ≤ p.target.toNat) ∨
    (p.finalAction.toNat = 0 ∧ p.target.toNat ≠ 0)) : ownerPatOpen p s = refuse s .badField := by
  have hnone : openHeader? p = none := by
    unfold openHeader?
    split
    · next hid hunit hfinal =>
      have := index?_lt hid
      have := timeUnit?_lt hunit
      have := finalAction?_bounds hfinal
      exact if_neg (by omega)
    · rfl
  simp only [ownerPatOpen, hnone]

theorem validSteps?_bounds {records : List RawStep} {new : List Step} (h : validSteps? records = some new) :
    new.length = records.length ∧ ∀ r ∈ records, ∃ x, decodeStep? r = some x := by
  induction records generalizing new with
  | nil => cases h; exact ⟨rfl, fun _ hr => absurd hr List.not_mem_nil⟩
  | cons r rest ih =>
    rw [validSteps?, List.mapM_cons] at h
    cases hx : decodeStep? r with
    | none => rw [hx] at h; cases h
    | some x =>
      cases hrest : rest.mapM decodeStep? with
      | none => rw [hx, hrest] at h; cases h
      | some xs =>
        rw [hx, hrest] at h
        cases h
        obtain ⟨hl, hall⟩ := ih hrest
        refine ⟨congrArg (· + 1) hl, fun y hy => ?_⟩
        rcases List.mem_cons.1 hy with rfl | hy
        exacts [⟨x, hx⟩, hall y hy]

theorem ownerPatSteps_fields {id first : Byte} {records : List RawStep} (h : 32 ≤ id.toNat ∨ 64 < first.toNat + records.length ∨
    (∃ x ∈ records, x.duration = 0#16 ∨ 4 ≤ x.kindMark.toNat % 128 ∨ (x.kindMark.toNat % 128 = 2 ∧ 8 ≤ x.cls.toNat) ∨
      (x.kindMark.toNat % 128 ≠ 2 ∧ x.cls ≠ 0x00#8))) : ownerPatSteps id first records s = refuse s .badField := by
  unfold ownerPatSteps
  split
  · next hid hsteps =>
    obtain ⟨hlen, hall⟩ := validSteps?_bounds hsteps
    have := index?_lt hid
    rcases h with h | h | ⟨x, hx, hbad⟩
    · omega
    · exact if_pos (by omega)
    · obtain ⟨y, hy⟩ := hall x hx
      obtain ⟨hd, hk, h2, hz⟩ := decodeStep?_bounds hy
      rcases hbad with hbad | hbad | hbad | hbad
      · exact absurd hbad hd
      · omega
      · exact absurd (h2 hbad.1) (by omega)
      · exact absurd (hz hbad.1) hbad.2
  · rfl

theorem ownerPatInfo_badField {id : Byte} (h : 32 ≤ id.toNat) : ownerPatInfo id s = refuse s .badField := by
  simp only [ownerPatInfo, index?_of_le h]

theorem ownerPatRead_badField {id first count : Byte}
    (h : 32 ≤ id.toNat ∨ count.toNat = 0 ∨ 9 ≤ count.toNat ∨ 64 < first.toNat + count.toNat) :
    ownerPatRead id first count s = refuse s .badField := by
  unfold ownerPatRead
  split
  · rfl
  · next hid =>
    have := index?_lt hid
    refine if_pos ?_
    rcases h with h | h | h
    · omega
    · exact .inl (BitVec.eq_of_toNat_eq h)
    · exact .inr (by omega)

theorem ownerCarSet_badField {cls : Byte} {period high : Half}
    (h : 8 ≤ cls.toNat ∨ period.toNat < 16 ∨ high.toNat = 0 ∨ period.toNat ≤ high.toNat) :
    ownerCarSet cls period high s = refuse s .badField := by
  have hnone : carSetFields? cls period high = none := by
    unfold carSetFields?
    split
    · rfl
    · next hk => have := index?_lt hk; exact if_neg (by omega)
  simp only [ownerCarSet, hnone]

theorem ownerCarClear_badField {cls : Byte} (h : 8 ≤ cls.toNat) : ownerCarClear cls s = refuse s .badField := by
  simp only [ownerCarClear, index?_of_le h]

theorem ownerCarStatus_badField {part : Byte} (h : 2 ≤ part.toNat) : ownerCarStatus part s = refuse s .badField := by
  unfold ownerCarStatus
  split <;> first | omega | rfl

theorem ownerChConfig_badField {p : ConfigFields} (h : 8 ≤ p.channel.toNat ∨ 2 ≤ p.polarity.toNat ∨ 2 ≤ p.drive.toNat ∨ 2 ≤ p.rest.toNat ∨
    3 ≤ p.safe.toNat ∨ 2 ≤ p.readback.toNat ∨ 2 ≤ p.safeOnLease.toNat ∨ 255 < p.waitLimit.toNat) :
    ownerChConfig p s = refuse s .badField := by
  have hnone : lineConfig? p = none := by
    unfold lineConfig?
    split
    · next hc hpol hdrv hrest hsf hrb hsol =>
      have := index?_lt hc
      have := flag?_lt hpol
      have := flag?_lt hdrv
      have := flag?_lt hrest
      have := safeLevel?_lt hsf
      have := flag?_lt hrb
      have := flag?_lt hsol
      exact if_neg (by omega)
    · rfl
  simp only [ownerChConfig, hnone]

theorem ownerChDisable_badField {mask force : Byte} (h : mask.toNat = 0 ∨ 2 ≤ force.toNat) :
    ownerChDisable mask force s = refuse s .badField := by
  unfold ownerChDisable
  split
  · rfl
  · next hm =>
    have hmask : mask.toNat ≠ 0 := fun hz => hm (BitVec.eq_of_toNat_eq hz)
    rw [flag?_of_le (by omega)]

theorem ownerPlay_badField {p : PlayFields} (h : 8 ≤ p.channel.toNat ∨ 32 ≤ p.pattern.toNat ∨ 4 ≤ p.priority.toNat ∨ 3 ≤ p.start.toNat ∨
    (p.start.toNat = 1 ∧ (8 ≤ p.line.toNat ∨ p.edge.toNat = 0 ∨ 4 ≤ p.edge.toNat)) ∨
    (p.start.toNat ≠ 1 ∧ (p.line.toNat ≠ 0 ∨ p.edge.toNat ≠ 0)) ∨ (p.start.toNat = 0 ∧ p.window.toNat ≠ 0) ∨
    2 ≤ p.overrideFlag.toNat ∨ (p.overrideFlag.toNat = 0 ∧ p.override.toNat ≠ 0) ∨ 16 ≤ p.flags.toNat) :
    ownerPlay p s = refuse s .badField := by
  have hnone : playJob? p = none := by
    unfold playJob?
    split
    · next hc hpat hpri hstart hov hflags =>
      have := index?_lt hc
      have := index?_lt hpat
      have := index?_lt hpri
      have := playStart?_bounds hstart
      have := playOverride?_bounds hov
      have := playFlags?_lt hflags
      omega
    · rfl
  simp only [ownerPlay, hnone]

theorem ownerCancel_badField {channel : Byte} {job : Half} (h : 8 ≤ channel.toNat ∨ job.toNat = 0) :
    ownerCancel channel job s = refuse s .badField := by
  unfold ownerCancel
  split
  · rfl
  · next hc =>
    have := index?_lt hc
    exact if_pos (BitVec.eq_of_toNat_eq (by simp only [BitVec.toNat_ofNat]; omega))

theorem ownerStop_badField {mask boundary flush : Byte}
    (h : mask.toNat = 0 ∨ boundary.toNat = 0 ∨ 4 ≤ boundary.toNat ∨ 2 ≤ flush.toNat) :
    ownerStop mask boundary flush s = refuse s .badField := by
  unfold ownerStop
  split
  · next hw hf =>
    have := stopWhen?_bounds hw
    have := flag?_lt hf
    exact if_pos (BitVec.eq_of_toNat_eq (by simp only [BitVec.toNat_ofNat]; omega))
  · rfl

theorem ownerChStatus_badField {channel : Byte} (h : 8 ≤ channel.toNat) : ownerChStatus channel s = refuse s .badField := by
  simp only [ownerChStatus, index?_of_le h]

theorem ownerLease_badField {period : Half} (h : (1 ≤ period.toNat ∧ period.toNat ≤ 9) ∨ 60000 < period.toNat) :
    ownerLease period s = refuse s .badField :=
  if_neg (by rw [validPeriod_iff]; exact not_not_intro h)

/-! ### The statement -/

/-- Settles O56: each command's checks of its fields stand first, and refuse it. -/
theorem badFieldsAreRefused : Obligations.BadFieldsAreRefused := by
  intro s v hs
  have refuses {i : Instr} {r : Request} (hi : i.request = some (v, r)) (hr : r.Fits) (ho : owner r v.tag s = refuse s .badField)
      (hx : s.Executes v r) : ∃ t, exec i s = .next t ∧ s.Refused t v r .badField [] :=
    exec_refused hs hi hr hx ho
  exact ⟨fun clear h => refuses rfl trivial (ownerStatus_badField s h), fun scope h => refuses rfl trivial (ownerReset_badField s h),
    fun k h => refuses rfl trivial (ownerFetch_badField s h), fun p h => refuses rfl trivial (ownerPatOpen_badField s h),
    fun id first records h1 h8 h => refuses rfl ⟨h1, h8⟩ (ownerPatSteps_fields s h),
    fun id h => refuses rfl trivial (ownerPatInfo_badField s h), fun id first count h => refuses rfl trivial (ownerPatRead_badField s h),
    fun cls period high h => refuses rfl trivial (ownerCarSet_badField s h), fun cls h => refuses rfl trivial (ownerCarClear_badField s h),
    fun part h => refuses rfl trivial (ownerCarStatus_badField s h), fun p h => refuses rfl trivial (ownerChConfig_badField s h),
    refuses rfl trivial rfl, fun mask force h => refuses rfl trivial (ownerChDisable_badField s h),
    fun p h => refuses rfl trivial (ownerPlay_badField s h), fun channel job h => refuses rfl trivial (ownerCancel_badField s h),
    fun mask boundary flush h => refuses rfl trivial (ownerStop_badField s h), refuses rfl trivial rfl, refuses rfl trivial rfl,
    refuses rfl trivial rfl, refuses rfl trivial rfl, fun channel h => refuses rfl trivial (ownerChStatus_badField s h),
    fun id h => ⟨refuses rfl trivial (ownerPatSeal_badField h), refuses rfl trivial (ownerPatDiscard_badField h),
      refuses rfl trivial (ownerPatDelete_badField h)⟩,
    fun period h => refuses rfl trivial (ownerLease_badField s h),
    fun enable threshold holdTime h => refuses rfl trivial (ownerAttnConfig_badField h),
    fun line selection filter h => refuses rfl trivial (ownerSnConfig_badField h),
    refuses (i := .chDisableForce v 0x00#8) (r := .chDisable 0x00#8 0x01#8) rfl trivial rfl⟩

end Sys2Proof.Machine
end

section
/-! PROOFS. LINK's decisions about a frame (R153, R156 to R163), the codes and lengths that it refuses (R169), and the end of a reply with
its reset and the buffered frame (R160, R179 to R181). -/

namespace Sys2Proof.Machine

variable {s t : State} {i : Instr} {v : Via} {r : Request} {f : Frame}

/-! ### Codes outside the catalogue and lengths that it does not permit (R169) -/

section Lengths

variable {payload : List Byte}

/-- The records of a payload take four bytes each. -/
theorem rawSteps?_length {bytes : List Byte} {records : List RawStep} (h : rawSteps? bytes = some records) :
    bytes.length = 4 * records.length := by
  induction bytes using rawSteps?.induct generalizing records with
  | case1 => simp_all [rawSteps?]
  | case2 a b c d rest ih =>
    simp only [rawSteps?, Option.map_eq_some_iff] at h
    obtain ⟨tail, htail, rfl⟩ := h
    simp [ih htail]
    omega
  | case3 => simp_all [rawSteps?]

theorem parseSteps_badLength (h : payload.length ∉ [6, 10, 14, 18, 22, 26, 30, 34]) : parseSteps payload = .error .badLength := by
  unfold parseSteps
  split
  next id first rest =>
    unfold stepsRequest
    split
    next records hr =>
      refine if_neg fun hn => h ?_
      have := rawSteps?_length hr
      simp
      omega
    next => rfl
  next => rfl

end Lengths

/-- A code outside the catalogue is BAD_CODE, whatever the payload. -/
theorem parseRequest_badCode {code : Byte} (payload : List Byte) (h : catalogueLengths code = []) : parseRequest code payload = .error .badCode := by
  unfold catalogueLengths at h
  unfold parseRequest
  split <;> first | rfl | simp_all

/-- A code of the catalogue with a length that it does not permit for the code is BAD_LENGTH. -/
theorem parseRequest_badLength {code : Byte} {payload : List Byte} (hc : catalogueLengths code ≠ [])
    (h : payload.length ∉ catalogueLengths code) : parseRequest code payload = .error .badLength := by
  unfold catalogueLengths at h hc
  unfold parseRequest
  split
  case h_11 e => simp only [e] at h; exact parseSteps_badLength h
  case h_33 => simp_all
  all_goals
    simp only [*] at h
    (first
      | unfold exactly0 | unfold exactly1 | unfold exactly2 | unfold exactly3
      | unfold parseOpen | unfold parseCarSet | unfold parseConfig | unfold parsePlay)
    split
    exacts [absurd (List.mem_singleton.2 rfl) h, rfl]

/-! ### A frame is decided (R153) -/

theorem crcPasses_iff : crcPasses f = true ↔ crc16 (framedBytes f.unitByte f.tag f.code f.payload) = f.crc := by
  simp [crcPasses]

/-- A command for this part bears no reply flag and a unit value that addresses it (R153, R156). -/
theorem State.isForUs_iff {b : Byte} : s.isForUs b = true ↔ b.getLsbD 3 = false ∧
    (b.toNat / 16 = 15 ∨ s.link.address = 15#4 ∨ b.toNat / 16 = s.link.address.toNat) := by
  simp only [State.isForUs, addresses, isBroadcast, replyFlag, Bool.and_eq_true, Bool.or_eq_true, decide_eq_true_iff,
    Bool.not_eq_true', or_assoc]
  rfl

theorem HostLink.cachedReply_eq_none {l : HostLink} :
    l.cachedReply f = none ↔ ∀ x, l.cache = some x → f.tag = 0x00#8 ∨ x.tag ≠ f.tag ∨ x.crc ≠ f.crc := by
  unfold HostLink.cachedReply
  split
  next x h => simp [h, ite_eq_right_iff]; tauto
  next h => simp [h]

theorem exec_frameReceived (f : Frame) (s : State) :
    exec (.frameReceived f) s = .next ((s.listening .hunt none).decideFrame f).settle := rfl

/-- A command handed to the dispatcher by a frame is what its row does with it. -/
theorem exec_of_forUs (hi : i.request = some (v, r)) (h : s.isForUs v.unitByte = true) :
    exec i s = .next (s.accept (commandFrame v r)).settle := by
  rw [exec_of_request hi, runCommand, State.command, if_pos h]

/-- A command whose code or length is refused is answered with the status alone (R169). -/
theorem State.accept_refused {status : Status} (hq : s.link.sending = none) (hb : isBroadcast f.unitByte = false)
    (hc : s.link.cachedReply f = none) (hp : parseRequest f.code f.payload = .error status) :
    s.accept f = s.reply f [status.code] none := by
  have ha : answerFrame f s = refuse s status := by rw [answerFrame, hp]
  unfold State.accept
  rw [hq]
  dsimp only
  unfold State.execute
  rw [hb, hc]
  simp [State.answer, ha, refuse]

/-- Settles O50: the CRC, the reply flag and the address, the renewal, and then the dispatcher. -/
theorem frameIsDecided : Obligations.FrameIsDecided := by
  intro s f i v r hs hunting
  have hh : hunting.Settled := hs.link _
  have hr : hunting.renewLease.Settled := ⟨hh.outbox, fun c => hh.outs c, hh.attention⟩
  refine ⟨fun hcrc => ?_, fun hcrc hu => ?_, fun hi hf hflag haddr => ?_, fun hcrc hflag hb haddr hq hfresh => ?_⟩
  · have hc : crcPasses f = false := by simpa [← crcPasses_iff] using hcrc
    rw [exec_frameReceived, State.decideFrame, hc]
    exact congrArg _ (hh.settle_link _)
  · have hu : hunting.isForUs f.unitByte = false := by
      rw [← Bool.not_eq_true, State.isForUs_iff]
      rintro ⟨hflag, haddr⟩
      rcases hu with hu | ⟨h15, ha, hne⟩
      · exact Bool.false_ne_true (hflag.symm.trans hu)
      · tauto
    rw [exec_frameReceived, State.decideFrame, crcPasses_iff.2 hcrc]
    change Host.Outcome.next (State.settle (if hunting.isForUs f.unitByte then _ else hunting)) = _
    rw [hu]
    exact congrArg _ (State.settle_of_settled _ hh)
  · subst hf
    have hu : hunting.isForUs v.unitByte = true := State.isForUs_iff.2 ⟨hflag, haddr⟩
    refine ⟨_, rfl, ?_⟩
    have hd : hunting.decideFrame (commandFrame v r) = hunting.renewLease.accept (commandFrame v r) := by
      rw [State.decideFrame, crcPasses_iff.2 rfl]
      exact if_pos hu
    exact (exec_of_forUs (s := hunting.renewLease) hi hu).trans (congrArg (Host.Outcome.next ∘ State.settle) hd.symm)
  · intro refused
    have hu : hunting.isForUs f.unitByte = true := State.isForUs_iff.2 ⟨hflag, .inr haddr⟩
    have hd : hunting.decideFrame f = hunting.renewLease.accept f := by
      rw [State.decideFrame, crcPasses_iff.2 hcrc]
      exact if_pos hu
    have answers {status : Status} (hp : parseRequest f.code f.payload = .error status) :
        exec (.frameReceived f) s = .next (refused status.code) := by
      have ha : hunting.renewLease.accept f = hunting.renewLease.reply f [status.code] none :=
        State.accept_refused hq (decide_eq_false hb) (HostLink.cachedReply_eq_none.2 hfresh) hp
      rw [exec_frameReceived]
      refine congrArg Host.Outcome.next ?_
      change (hunting.decideFrame f).settle = _
      rw [hd, ha, State.settle_of_settled _ (State.settled_reply hr _ _ _)]
      rfl
    exact ⟨fun hc => answers (parseRequest_badCode _ hc), fun hc hl => answers (parseRequest_badLength hc hl)⟩

/-! ### Frames that wait, are repeated or are broadcast (R157, R158, R163) -/

/-- The commands that a broadcast may carry leave LINK alone (R157). -/
theorem owner_link (tag : Byte) (s : State) (h : broadcastPermitted r.code = true) : (owner r tag s).state.link = s.link := by
  cases r with
  | go mask =>
    simp only [owner, ownerGo]
    split
    exacts [rfl, (effects_startHeads _ s).link]
  | stop mask boundary flush =>
    simp only [owner, ownerStop]
    split
    · split
      · rfl
      · exact ((effects_withdrawWaiters _ s).trans
          (effects_forEach _ _ _ fun c u => .of_works (works_stopChannel s.chan _ _ c u))).link
    · rfl
  | hold mask =>
    simp only [owner, ownerHold]
    split
    exacts [rfl, (effects_forEach s _ _ fun c u => .of_works (works_holdChannel c u)).link]
  | resume mask =>
    simp only [owner, ownerResume]
    split
    exacts [rfl, (effects_forEach s _ _ fun c u => .of_works (works_resumeChannel c u)).link]
  | recover =>
    simp only [owner, ownerRecover]
    split <;> rfl
  | _ => simp [broadcastPermitted, Request.code] at h

/-- FETCH alone reads the tag of its frame (R130). -/
theorem owner_tag (tag tag' : Byte) (s : State) (h : broadcastPermitted r.code = true) : owner r tag s = owner r tag' s := by
  cases r with
  | fetch k => simp [broadcastPermitted, Request.code] at h
  | _ => rfl

theorem answerFrame_commandFrame (hr : r.Fits) (v : Via) (s : State) : answerFrame (commandFrame v r) s = owner r v.tag s := by
  simp [answerFrame, commandFrame, parseRequest_payload r hr]

theorem broadcastPermitted_iff {code : Byte} : broadcastPermitted code = true ↔
    code = 0x48#8 ∨ code = 0x45#8 ∨ code = 0x46#8 ∨ code = 0x47#8 ∨ code = 0x09#8 :=
  decide_eq_true_iff

theorem State.accept_of_quiet (h : s.link.sending = none) (f : Frame) : s.accept f = s.execute f := by
  rw [State.accept, h]

/-- A broadcast is executed without a reply if its code is permitted, and does nothing otherwise. -/
theorem State.execute_broadcast (hr : r.Fits) (hb : isBroadcast v.unitByte = true) (s : State) :
    s.execute (commandFrame v r) = if broadcastPermitted r.code then (owner r v.tag s).state else s := by
  rw [State.execute, answerFrame_commandFrame hr]
  exact if_pos hb

/-- The end of an event does not read LINK. -/
theorem State.settle_withLink (u : State) (l : HostLink) : State.settle { u with link := l } = { u.settle with link := l } := by
  unfold State.settle State.flushReports State.takenReports
  by_cases h : oneProducer u.outbox = true <;> simp only [h] <;> rfl

/-- Settles O51: the dispatcher buffers, drops, repeats, or executes without an answer. -/
theorem waitingRepeatedAndBroadcastFrames : Obligations.WaitingRepeatedAndBroadcastFrames := by
  intro s i v r pins hs hi hr hu
  have hexec := exec_of_forUs hi hu
  refine ⟨fun x hx hb => ?_, fun x f hx hb => ?_, fun x hx hreset hb hdue => ?_, fun x hq hb ht hc htag hcrc => ?_, fun hq hb => ?_⟩
  · rw [hexec, State.accept, hx, hb]
    exact congrArg _ (hs.settle_link _)
  · rw [hexec, State.accept, hx, hb]
    exact congrArg _ (hs.settle_link _)
  · have he : s.endReply pins = { s with link := { s.link with sending := none, buffer := none } }.execute (commandFrame v r) := by
      rw [State.endReply, hx]
      dsimp only
      rw [hreset]
      change s.quiet.executeBuffered = _
      rw [State.executeBuffered, show s.quiet.link.buffer = _ from hb]
      rfl
    rw [exec_of_forUs hi (s := { s with link := { s.link with sending := none, buffer := none } }) hu, State.accept_of_quiet rfl, ← he]
    exact congrArg Host.Outcome.next (if_pos hdue)
  · have hcached : s.link.cachedReply (commandFrame v r) = some x.reply := by
      rw [HostLink.cachedReply, hc]
      exact if_pos ⟨ht, htag, hcrc⟩
    have he : s.execute (commandFrame v r) = s.send x.reply none := by
      rw [State.execute, hcached]
      exact if_neg (by simpa [commandFrame] using hb)
    rw [hexec, State.accept_of_quiet hq, he]
    exact congrArg _ (hs.settle_link _)
  · rw [hexec, State.accept_of_quiet hq, State.execute_broadcast hr hb]
    refine ⟨fun h1 h2 h3 h4 h5 => ?_, fun hcode i' v' hi' hx => ?_, _, rfl, ?_⟩
    · rw [if_neg (by rw [broadcastPermitted_iff]; tauto), State.settle_of_settled _ hs]
    · have hp := broadcastPermitted_iff.2 hcode
      refine ⟨_, exec_of_executes hi' hr hx, ?_⟩
      rw [if_pos hp, owner_tag v.tag v'.tag s hp, State.settle_reply]
      refine congrArg Host.Outcome.next ?_
      rw [← owner_link v'.tag s hp, ← State.settle_link]
      rfl
    · split
      next hp => rw [State.settle_link, owner_link v.tag s hp]
      next => rw [State.settle_link]

/-! ### The end of a reply and its reset (R160, R179 to R181) -/

theorem Channel.jobCount_eq (ch : Channel) : ch.jobCount = ch.jobNumbers.length := by
  unfold Channel.jobCount Channel.jobNumbers
  cases ch.active <;> simp [Nat.add_comm]

theorem State.jobCount_eq (s : State) : s.jobCount = s.jobNumbers.length := by
  simp only [State.jobCount, State.jobNumbers, List.length_flatMap, Channel.jobCount_eq]

theorem LeaseTimer.afterOutputsReset_eq (l : LeaseTimer) : l.afterOutputsReset
    = if l.state = .off then l else ⟨l.period, .running (l.period * Config.clocksPerMilli)⟩ := by
  unfold LeaseTimer.afterOutputsReset
  split <;> simp_all [LeaseTimer.restarted, leaseClocks]

theorem ownerReset_eq {scope : Byte} (h : scope = 0x01#8 ∨ scope = 0x02#8) (s : State) :
    ownerReset scope s = ⟨s, [statusOk, scope], some (if scope = 0x01#8 then .outputs else .all)⟩ := by
  rcases h with rfl | rfl <;> rfl

theorem HostLink.replyDue_iff {l : HostLink} {x : Sending} (h : l.sending = some x) :
    l.replyDue = true ↔ x.bytes.length * 10 * 8000000 ≤ x.elapsed * lineRate l.rate := by
  rw [HostLink.replyDue, h]
  exact decide_eq_true_iff

theorem State.executeBuffered_empty (h : s.link.buffer = none) : s.executeBuffered = s := by
  rw [State.executeBuffered, h]

theorem exec_replyEnd (pins : BitVec 8) (h : s.link.replyDue = true) : exec (.replyEnd pins) s = .next (s.endReply pins).settle :=
  congrArg Host.Outcome.next (if_pos h)

theorem State.endReply_eq {x : Sending} (pins : BitVec 8) (h : s.link.sending = some x) :
    s.endReply pins = (s.quiet.takeReset pins x.reset).executeBuffered := by
  rw [State.endReply, h]

theorem State.executeBuffered_frame (h : s.link.buffer = some f) :
    s.executeBuffered = State.execute { s with link := { s.link with buffer := none } } f := by
  rw [State.executeBuffered, h]

/-- RESET ALL discards the buffered frame (R181). -/
theorem State.executeBuffered_hardReset (a : BitVec 4) (r : BitVec 2) (pins : BitVec 8) (s : State) :
    (s.hardReset a r pins).executeBuffered = s.hardReset a r pins :=
  State.executeBuffered_empty rfl

/-- RESET OUTPUTS neither reads nor writes LINK (R180). -/
theorem State.settle_resetOutputs_withLink (u : State) (l : HostLink) :
    State.settle (State.resetOutputs { u with link := l }) = { u.resetOutputs.settle with link := l } := by
  rw [← State.settle_withLink]
  rfl

/-- RESET OUTPUTS at the end of its reply, with nothing buffered. -/
theorem State.endReply_outputs {x : Sending} (pins : BitVec 8) (h : s.link.sending = some x) (hr : x.reset = some .outputs)
    (hb : s.link.buffer = none) :
    (s.endReply pins).settle = { s.resetOutputs.settle with link := { s.link with sending := none } } := by
  rw [State.endReply_eq pins h, hr]
  change (s.quiet.resetOutputs.settle.executeBuffered).settle = _
  rw [State.executeBuffered_empty (by rw [State.settle_link, State.resetOutputs_link]; exact hb),
    State.settle_of_settled _ (State.settled_settle _)]
  exact s.settle_resetOutputs_withLink _

/-- RESET ALL at the end of its reply (R181). -/
theorem State.endReply_all {x : Sending} (pins : BitVec 8) (h : s.link.sending = some x) (hr : x.reset = some .all) :
    (s.endReply pins).settle = s.hardReset s.link.address s.link.rate pins := by
  rw [State.endReply_eq pins h, hr]
  change ((s.hardReset s.link.address s.link.rate pins).executeBuffered).settle = _
  rw [State.executeBuffered_hardReset, State.settle_of_settled _ (State.settled_hardReset _ _ _ s)]

/-- Settles O49: the transmitter is QUIET, the reset takes effect, and the buffered frame is executed, in that order. -/
theorem resetsTakeEffectAtReplyEnd : Obligations.ResetsTakeEffectAtReplyEnd := by
  intro s v pins x hs
  refine ⟨fun scope hscope hx => ?_, fun hx hb => ?_, fun hx hended => ⟨fun hall => ?_, fun i v' r hout hi hr hu hb => ?_⟩⟩
  · refine ⟨_, exec_of_executes (r := .reset scope) rfl trivial hx, ?_⟩
    rw [owner, ownerReset_eq hscope, State.settle_of_settled _ (State.settled_reply hs _ _ _)]
    exact ⟨reply_link rfl _ _, fun b hb => by cases b <;> first | rfl | simp at hb, rfl, rfl⟩
  · obtain ⟨t, ht, hearly, hdue⟩ := runEvent_next s.link.replyDue (fun u => u.endReply pins) s
    refine ⟨t, ht, ?_⟩
    intro ended
    have hiff : s.link.replyDue = true ↔ ended := HostLink.replyDue_iff hx
    refine ⟨fun h => hearly (by simpa [← hiff] using h), fun h hn => ?_, fun h ho => ?_, fun h ha => ?_⟩
    · rw [hdue (hiff.2 h), State.endReply_eq pins hx, hn]
      change s.quiet.executeBuffered.settle = _
      rw [State.executeBuffered_empty (s := s.quiet) hb]
      exact hs.settle_link _
    · have ho : t = { s.resetOutputs.settle with link := { s.link with sending := none } } :=
        (hdue (hiff.2 h)).trans (State.endReply_outputs pins hx ho hb)
      subst ho
      have houtbox : s.resetOutputs.outbox
          = [(.unit, ⟨.outputsReset, s.rpt.partTime, none, 0#16, byteOf s.jobCount, 0x00#8⟩)] := by
        rw [State.resetOutputs_outbox, hs.outbox, List.nil_append]
      have hone : oneProducer s.resetOutputs.outbox = true := by
        rw [houtbox]
        rfl
      refine ⟨fun c => ?_, fun p => ?_, ?_, fun g => ?_, ?_, ?_, ?_, ?_, rfl, ?_, ?_⟩
      · exact (State.chan_settle _ c).trans (State.chan_resetOutputs s c)
      · exact (State.entry_settle _ p).trans (State.entry_resetOutputs s p)
      · exact (congrArg PatternTable.load (State.settle_ptab _)).trans (State.resetOutputs_load s)
      · exact (State.gen_settle _ g).trans (State.gen_resetOutputs s g)
      · exact (congrArg Carriers.waitList (State.settle_carb _)).trans (State.resetOutputs_waitList s)
      · exact (congrArg Carriers.classes (State.settle_carb _)).trans (State.resetOutputs_classes s)
      · exact (State.settle_lease _).trans ((State.resetOutputs_lease s).trans s.lease.afterOutputsReset_eq)
      · change s.resetOutputs.settle.rpt = _
        rw [State.settle_rpt hone, houtbox, State.resetOutputs_rpt, s.jobCount_eq]
        rfl
      · refine ⟨fun b hb => ?_, State.settle_clock _ |>.trans (State.resetOutputs_clock s),
          State.settle_pending _ |>.trans (State.resetOutputs_pending s)⟩
        cases b with
        | jobCounter => exact (State.settle_nextJob _).trans (State.resetOutputs_nextJob s)
        | sense => exact (State.settle_sense _).trans (State.resetOutputs_sense s)
        | choices => exact (State.settle_choices hone).trans (State.resetOutputs_choices s)
        | _ => simp at hb
      · exact (State.settled_settle _).link _
    · rw [hdue (hiff.2 h), State.endReply_all pins hx ha]
      rfl
  · rw [exec_replyEnd pins ((HostLink.replyDue_iff hx).2 hended), State.endReply_all pins hx hall]
    rfl
  · have hdue := (HostLink.replyDue_iff hx).2 hended
    refine ⟨_, exec_replyEnd pins (s := { s with link := { s.link with buffer := none } }) hdue, ?_⟩
    let emptied : State := { s with link := { s.link with buffer := none } }
    have he : (emptied.endReply pins).settle
        = { s.resetOutputs.settle with link := { s.link with sending := none, buffer := none } } := by
      rw [State.endReply_outputs (s := emptied) pins hx hout rfl, State.settle_resetOutputs_withLink]
    have hquiet : s.quiet.resetOutputs.settle = { s.resetOutputs.settle with link := s.quiet.link } :=
      s.settle_resetOutputs_withLink _
    rw [he, exec_of_forUs hi (s := { s.resetOutputs.settle with link := { s.link with sending := none, buffer := none } }) hu,
      exec_replyEnd pins hdue, State.endReply_eq pins hx, hout, State.accept_of_quiet rfl]
    refine congrArg (Host.Outcome.next ∘ State.settle) ?_
    change s.quiet.resetOutputs.settle.executeBuffered = _
    rw [hquiet]
    exact State.executeBuffered_frame hb

end Sys2Proof.Machine
end

section
/-! PROOFS. The work of one channel told exactly, the references that it gives up (R8), and what the end of an event makes of it: the layer
that the statements about the carriers and the channels are read from. -/

namespace Sys2Proof.Machine

variable {s t u : State} {c d : Chan} {ch ch' : Channel} {made more : List Report}

/-! ### One channel alone -/

/-- Channel `c` alone has changed: its record is `ch` now, and it has made some reports. -/
structure State.Alone (s u : State) (c : Chan) (ch : Channel) (made : List Report) : Prop where
  own : u.chan c = ch
  others : ∀ d, d ≠ c → u.chan d = s.chan d
  reports : u.outbox = s.outbox ++ made.map (Prod.mk (.channel c))
  rpt : u.rpt = s.rpt

namespace State.Alone

theorem refl (s : State) (c : Chan) : s.Alone s c (s.chan c) [] :=
  ⟨rfl, fun _ _ => rfl, by simp, rfl⟩

theorem trans (h : s.Alone t c ch made) (k : t.Alone u c ch' more) : s.Alone u c ch' (made ++ more) :=
  ⟨k.own, fun d hd => (k.others d hd).trans (h.others d hd), by rw [k.reports, h.reports, List.map_append, List.append_assoc],
    k.rpt.trans h.rpt⟩

theorem modChan (s : State) (c : Chan) (f : Channel → Channel) : s.Alone (s.modChan c f) c (f (s.chan c)) [] :=
  ⟨by simp, fun d hd => by simp [hd], by simp, rfl⟩

theorem modActive (s : State) (c : Chan) (f : Active → Active) :
    s.Alone (s.modActive c f) c { s.chan c with active := (s.chan c).active.map f } [] :=
  modChan s c _

/-- A further change of the record. -/
theorem thenChan (h : s.Alone t c ch made) (f : Channel → Channel) : s.Alone (t.modChan c f) c (f ch) made := by
  have k := h.trans (modChan t c f)
  rwa [List.append_nil, h.own] at k

/-- A change of the tables and of CARB alone. -/
theorem tables (hc : u.chans = s.chans) (ho : u.outbox = s.outbox) (hr : u.rpt = s.rpt) : s.Alone u c (s.chan c) [] :=
  ⟨State.chan_congr hc c, fun d _ => State.chan_congr hc d, by simpa using ho, hr⟩

theorem jobReport (s : State) (c : Chan) (kind : ReportKind) (job : Half) (a b : Byte) :
    s.Alone (s.jobReport c kind job a b) c (s.chan c) [⟨kind, s.rpt.partTime, some c, job, a, b⟩] :=
  ⟨rfl, fun _ _ => rfl, rfl, rfl⟩

end State.Alone

/-- The MARK report at the entry of a step, where one is made (R59). -/
def markReports (s : State) (c : Chan) (a : Active) (x : Step) : List Report :=
  if x.mark && a.job.flags.marks then
    [⟨.mark, s.rpt.partTime, some c, a.job.number, byteOf a.stepIndex, byteOf a.job.pattern.val⟩] else []

theorem State.alone_markEntry (s : State) (c : Chan) (a : Active) (x : Step) :
    s.Alone (s.markEntry c a x) c (s.chan c) (markReports s c a x) := by
  unfold State.markEntry markReports
  split
  exacts [.jobReport s c _ _ _ _, .refl s c]

@[simp] theorem State.carb_markEntry (s : State) (c : Chan) (a : Active) (x : Step) : (s.markEntry c a x).carb = s.carb := by
  unfold State.markEntry
  split <;> rfl

@[simp] theorem State.ptab_markEntry (s : State) (c : Chan) (a : Active) (x : Step) : (s.markEntry c a x).ptab = s.ptab := by
  unfold State.markEntry
  split <;> rfl

/-- The STARTED report of a job, where one is made (R45). -/
def startReports (s : State) (c : Chan) (j : Job) : List Report :=
  if j.flags.reportStart then [⟨.started, s.rpt.partTime, some c, j.number, byteOf j.pattern.val, j.start.code⟩] else []

theorem State.alone_startJob (s : State) (c : Chan) (j : Job) (rest : List Job) :
    s.Alone (s.startJob c j rest) c (Channel.starting j rest (s.repeatsOf j.pattern) (s.chan c)) (startReports s c j) := by
  unfold State.startJob State.startReport startReports
  split
  · exact (State.Alone.modChan s c _).trans (by simpa using State.Alone.jobReport (s.modChan c _) c .started _ _ _)
  · exact .modChan s c _

@[simp] theorem State.ptab_startJob (s : State) (c : Chan) (j : Job) (rest : List Job) : (s.startJob c j rest).ptab = s.ptab := by
  unfold State.startJob State.startReport
  split <;> rfl

theorem State.rpt_startJob (s : State) (c : Chan) (j : Job) (rest : List Job) : (s.startJob c j rest).rpt = s.rpt :=
  (s.alone_startJob c j rest).rpt

/-! ### The end of a job, told exactly -/

/-- The ENDED report of a job, where one is made (R61). -/
def endReports (s : State) (c : Chan) (a : Active) (o : JobOutcome) : List Report :=
  if endReported a.job o then [⟨.ended, s.rpt.partTime, some c, a.job.number, byteOf a.job.pattern.val, o.byte⟩] else []

/-- A job ends on a channel whose carrier claims free nothing that another channel is granted. -/
theorem State.alone_endJob {a : Active} (o : JobOutcome) (ha : (s.chan c).active = some a)
    (h : ∀ d, d ≠ c → (s.giveUpCarrier c).chan d = s.chan d) : s.Alone (s.endJob c o) c (s.chan c).ended (endReports s c a o) :=
  ⟨State.chan_endJob_same o ha, fun d hd => (State.chan_endJob_other o ha hd).trans (h d hd), by
    rw [State.outbox_endJob o ha, endedReports, endReports]
    split <;> rfl, (works_endJob c s o).rpt⟩

/-- A job ends on a channel without an attachment. -/
theorem State.alone_endJob_unattached {a : Active} (o : JobOutcome) (ha : (s.chan c).active = some a) (hn : a.attach = none) :
    s.Alone (s.endJob c o) c (s.chan c).ended (endReports s c a o) :=
  ⟨State.chan_endJob_same o ha, (State.endJob_of_unattached o ha hn).2, by
    rw [State.outbox_endJob o ha, endedReports, endReports]
    split <;> rfl, (works_endJob c s o).rpt⟩

/-- The queued jobs of a channel are dropped (R40). -/
theorem State.alone_dropAll (s : State) (c : Chan) (r : DropReason) : ∃ armed, s.Alone (s.dropAll c r) c
    { s.chan c with queue := [], armed := armed }
    ((s.chan c).queue.map fun j => ⟨.dropped, s.rpt.partTime, some c, j.number, byteOf j.pattern.val, r.code⟩) := by
  obtain ⟨⟨armed, h1⟩, h2, -, -, h5⟩ := s.dropAll_eq c r
  exact ⟨armed, h1, h2, by rw [h5, List.map_map]; rfl, (works_dropAll c s r).rpt⟩

theorem State.alone_dropJob (s : State) (c : Chan) (j : Job) (r : DropReason) : s.Alone (s.dropJob c j r) c
    ((s.chan c).withoutJob j.number) [⟨.dropped, s.rpt.partTime, some c, j.number, byteOf j.pattern.val, r.code⟩] :=
  ⟨by simp, fun d hd => by simp [hd], State.outbox_dropJob j r s c, rfl⟩

/-! ### References given up (R8) -/

/-- Some patterns lose a reference each. -/
def State.dropRefs (s : State) (ps : List PatId) : State :=
  ps.foldl State.dropRef s

theorem Entry.less_zero (e : Entry) : e.less 0 = e := by
  cases e <;> rfl

theorem Entry.dropRef_less (e : Entry) (n : Nat) : e.dropRef.less n = e.less (n + 1) := by
  cases e <;> simp [Entry.dropRef, Entry.less, Nat.sub_sub, Nat.add_comm]

theorem State.releases_dropRefs (s : State) (ps : List PatId) : s.Releases (s.dropRefs ps) fun q => ps.count q := by
  induction ps generalizing s with
  | nil => exact ⟨rfl, fun p => (Entry.less_zero _).symm⟩
  | cons p ps ih =>
    obtain ⟨hl, he⟩ := ih (s.dropRef p)
    refine ⟨hl, fun q => ?_⟩
    rw [State.dropRefs, List.foldl_cons, ← State.dropRefs, he, State.entry_dropRef]
    dsimp only
    rw [List.count_cons]
    by_cases h : q = p
    · rw [if_pos h, Entry.dropRef_less, if_pos (by simp [h])]
    · rw [if_neg h, if_neg (by simpa using Ne.symm h), Nat.add_zero]

theorem State.Releases.congr {f g : PatId → Nat} (h : s.Releases t f) (hp : u.ptab = t.ptab) (hf : ∀ q, f q = g q) :
    s.Releases u g :=
  ⟨(congrArg PatternTable.load hp).trans h.1, fun q => by rw [State.entry_congr hp, h.2, hf]⟩

/-- The patterns that the jobs of a channel name. -/
def Channel.patterns (ch : Channel) : List PatId :=
  (ch.active.map fun a => a.job.pattern).toList ++ ch.queue.map Job.pattern

theorem Channel.count_patterns (ch : Channel) (p : PatId) : ch.patterns.count p = ch.naming p := by
  unfold Channel.patterns Channel.naming
  rw [List.count_append]
  congr 1
  · cases ch.active <;> simp [List.count_cons]
  · induction ch.queue with
    | nil => rfl
    | cons j q ih => simp [List.count_cons, List.countP_cons, ih]

theorem State.ptab_foldl_dropRef {α : Type} (f : α → PatId) (js : List α) {u v : State} (h : u.ptab = v.ptab) :
    (js.foldl (fun w j => w.dropRef (f j)) u).ptab = (v.dropRefs (js.map f)).ptab := by
  induction js generalizing u v with
  | nil => exact h
  | cons j js ih => exact ih (by simp only [State.dropRef, State.setEntry, State.entry, h])

theorem State.ptab_dropAll (s : State) (c : Chan) (r : DropReason) :
    (s.dropAll c r).ptab = (s.dropRefs ((s.chan c).queue.map Job.pattern)).ptab := by
  obtain ⟨-, -, -, h, -⟩ := s.dropAll_eq c r
  rw [h]
  exact State.ptab_foldl_dropRef Job.pattern _ rfl

theorem State.releases_one {p : PatId} (h : t.ptab = (s.dropRef p).ptab) : s.Releases t fun q => if q = p then 1 else 0 :=
  (s.releases_dropRefs [p]).congr h fun q => by
    rw [List.count_singleton]
    simp only [beq_iff_eq, eq_comm (a := q)]

/-- The one job of a channel gives up its reference. -/
theorem State.releases_active {a : Active} (h : t.ptab = (s.dropRef a.job.pattern).ptab) (ha : (s.chan c).active = some a)
    (hq : (s.chan c).queue = []) : s.Releases t ((s.chan c).naming ·) :=
  (s.releases_dropRefs [a.job.pattern]).congr h fun q => by
    rw [← Channel.count_patterns, Channel.patterns, ha, hq]
    rfl

/-! ### The end of the event -/

theorem Works.oneProducer (w : Works c s u) (ho : s.outbox = []) : oneProducer u.outbox = true := by
  obtain ⟨m, e, h⟩ := w.reports
  rw [e, ho, List.nil_append]
  exact oneProducer_of_forall fun x hx => (h x hx).1

/-- The lines of the channels that have not worked stay, where the generators do. -/
theorem Works.drivenLevel (w : Works c s u) (hd : u.chan d = s.chan d) (hg : u.carb.gens = s.carb.gens) :
    u.drivenLevel d = s.drivenLevel d :=
  State.drivenLevel_eq hd (fun a _ => State.currentStep_of_clearRefs w.entries a)
    fun _ g _ _ => by simp only [State.gen, hg]

/-- At the end of an event in which one channel has worked: the blocks that its work did not reach are as they were. -/
theorem Works.keepsAllBut (w : Works c s u) (hs : s.Settled) {changed : List Block} (hchannels : .channels ∈ changed)
    (hpatterns : .patterns ∉ changed → u.ptab = s.ptab) (hcarriers : .carriers ∉ changed → u.carb = s.carb)
    (houtputs : .outputs ∉ changed → ∀ d, u.drivenLevel d = s.drivenLevel d) (hreports : .reports ∉ changed → u.outbox = []) :
    s.KeepsAllBut u.settle changed :=
  hs.keepsAllBut w.clock w.pending
    (fun b hb _ _ _ => by
      cases b with
      | patterns => exact hpatterns hb
      | channels => exact absurd hchannels hb
      | jobCounter => exact w.nextJob
      | carriers => exact hcarriers hb
      | sense => exact w.sense
      | lease => exact w.lease
      | link => exact w.link
      | _ => contradiction)
    houtputs (fun hr => ⟨w.rpt, hreports hr⟩) fun _ => ⟨w.choices, w.oneProducer hs.outbox⟩

/-- RPT takes what one channel has reported, in its order (R128). -/
theorem State.taking_of_reports (ho : u.outbox = s.outbox ++ made.map (Prod.mk (.channel c))) (hr : u.rpt = s.rpt) (hs : s.Settled) :
    u.settle.rpt = s.rpt.taking made := by
  rw [hs.outbox, List.nil_append] at ho
  rw [State.settle_rpt (oneProducer_of_forall (p := .channel c) fun x hx => ?_), ho, hr, List.map_map]
  · exact congrArg _ (List.map_id _)
  · rw [ho] at hx
    obtain ⟨r, -, rfl⟩ := List.mem_map.1 hx
    rfl

theorem State.Alone.taking (h : s.Alone u c ch made) (hs : s.Settled) : u.settle.rpt = s.rpt.taking made :=
  State.taking_of_reports h.reports h.rpt hs

theorem State.Alone.outbox (h : s.Alone u c ch []) (hs : s.Settled) : u.outbox = [] := by
  rw [h.reports, hs.outbox]
  rfl

/-- Where one channel alone has changed, at rest before and after, no line moves. -/
theorem State.Alone.drivenLevel (h : s.Alone u c ch made) (w : Works c s u) (hg : u.carb.gens = s.carb.gens)
    (hc : u.drivenLevel c = s.drivenLevel c) (d : Chan) : u.drivenLevel d = s.drivenLevel d := by
  by_cases e : d = c
  · exact e ▸ hc
  · exact w.drivenLevel (h.others d e) hg

theorem State.Alone.chan (h : s.Alone u c ch made) : u.settle.chan c = ch :=
  (State.chan_settle u c).trans h.own

theorem State.Alone.keepsChannels (h : s.Alone u c ch made) : s.KeepsChannelsBut u.settle c :=
  fun d hd => (State.chan_settle u d).trans (h.others d hd)

theorem State.Releases.settle {f : PatId → Nat} (h : s.Releases u f) : s.Releases u.settle f :=
  h.congr u.settle_ptab fun _ => rfl

end Sys2Proof.Machine
end

section
/-! PROOFS. A request for a carrier (R81 to R85), and the job that ends with nothing queued behind it: CARRIER_WAIT_EXPIRY and CAR_CLEAR
(R78, R85). -/

namespace Sys2Proof.Machine

variable {s t u : State} {c d : Chan} {g : GenId} {k : Cls} {a : Active}

/-! ### The three decisions of a request (R81) -/

theorem State.holder_eq_some (hg : (s.gen g).cls = some k) (hu : ∀ g', (s.gen g').cls = some k → g' = g) : s.holder k = some g := by
  cases h : s.holder k with
  | none => exact absurd hg (State.holder_eq_none.1 h g)
  | some g' => rw [hu g' (by simpa using List.find?_some h)]

theorem State.freeGen_eq (hg : s.gen g = .free) (hl : ∀ g', g' < g → s.gen g' ≠ .free) : s.freeGen = some g := by
  have e : List.finRange 3 = [0, 1, 2] := rfl
  unfold State.freeGen
  rw [e]
  match g with
  | 0 => simp [hg]
  | 1 => simp [hg, hl 0]
  | 2 => simp [hg, hl 0, hl 1]

theorem State.request_joins (hg : (s.gen g).cls = some k) (hu : ∀ g', (s.gen g').cls = some k → g' = g) :
    s.request c k = s.join c g := by
  rw [State.request, State.holder_eq_some hg hu]

theorem State.request_allocates (hk : ∀ g', (s.gen g').cls ≠ some k) (hg : s.gen g = .free) (hl : ∀ g', g' < g → s.gen g' ≠ .free) :
    s.request c k = s.allocate c k g := by
  rw [State.request, State.holder_eq_none.2 hk, State.freeGen_eq hg hl]

theorem State.request_waits (hk : ∀ g, (s.gen g).cls ≠ some k ∧ s.gen g ≠ .free) : s.request c k = s.wait c k := by
  rw [State.request, State.holder_eq_none.2 fun g => (hk g).1, State.freeGen_eq_none.2 fun g => (hk g).2]

/-- A request is a join, an allocation, or a wait. -/
theorem State.request_cases (s : State) (c : Chan) (k : Cls) :
    (∃ g, (s.gen g).cls = some k ∧ s.request c k = s.join c g) ∨
      (∃ g, (∀ g', (s.gen g').cls ≠ some k) ∧ s.gen g = .free ∧ s.request c k = s.allocate c k g) ∨
      (∀ g, (s.gen g).cls ≠ some k ∧ s.gen g ≠ .free) ∧ s.request c k = s.wait c k := by
  unfold State.request
  split
  next g h => exact .inl ⟨g, by simpa using List.find?_some h, rfl⟩
  next h =>
    have hk := State.holder_eq_none.1 h
    split
    next g hf => exact .inr (.inl ⟨g, hk, State.freeGen_eq_some hf, rfl⟩)
    next hf => exact .inr (.inr ⟨fun g => ⟨hk g, State.freeGen_eq_none.1 hf g⟩, rfl⟩)

/-! ### What each of them does -/

theorem State.alone_join (s : State) (c : Chan) (g : GenId) : s.Alone (s.join c g) c
    (Channel.attached g (if (s.gen g).phase = 0 then .opened else .opening) (s.chan c)) [] :=
  (State.Alone.tables (s := s) (c := c) (u := s.setGen g _) rfl rfl rfl).thenChan (Channel.attached g _)

theorem State.alone_allocate (s : State) (c : Chan) (k : Cls) (g : GenId) :
    s.Alone (s.allocate c k g) c (Channel.attached g .opened (s.chan c)) [] :=
  (State.Alone.tables (s := s) (c := c) (u := s.setGen g _) rfl rfl rfl).thenChan (Channel.attached g _)

theorem State.alone_wait (s : State) (c : Chan) (k : Cls) : s.Alone (s.wait c k) c (s.chan c).waiting [] :=
  (State.Alone.tables (s := s) (c := c) (u := s.setWaitList (s.carb.waitList ++ [(⟨c, k⟩ : Waiter)])) rfl rfl rfl).thenChan
    Channel.waiting

/-- Whatever is decided, the channel alone changes, and no report is made. -/
theorem State.alone_request (s : State) (c : Chan) (k : Cls) : ∃ ch, s.Alone (s.request c k) c ch [] := by
  rcases s.request_cases c k with ⟨g, -, e⟩ | ⟨g, -, -, e⟩ | ⟨-, e⟩ <;> rw [e]
  exacts [⟨_, s.alone_join c g⟩, ⟨_, s.alone_allocate c k g⟩, ⟨_, s.alone_wait c k⟩]

@[simp] theorem State.ptab_request (s : State) (c : Chan) (k : Cls) : (s.request c k).ptab = s.ptab := by
  rcases s.request_cases c k with ⟨g, -, e⟩ | ⟨g, -, -, e⟩ | ⟨-, e⟩ <;> rw [e] <;> rfl

@[simp] theorem State.gen_join (s : State) (c : Chan) (g g' : GenId) :
    (s.join c g).gen g' = if g' = g then (s.gen g).joined else s.gen g' :=
  State.gen_setGen s g g' _

@[simp] theorem State.gen_allocate (s : State) (c : Chan) (k : Cls) (g g' : GenId) :
    (s.allocate c k g).gen g' = if g' = g then .running k 0 true else s.gen g' :=
  State.gen_setGen s g g' _

theorem Gen.joined_eq {x : Gen} (h : x.cls = some k) : x.joined = .running k x.phase x.inHigh := by
  cases x <;> simp_all [Gen.cls, Gen.joined, Gen.phase, Gen.inHigh]

/-- Both lists are in channel order. -/
theorem State.users_eq_singleton : s.users g = [c] ↔ ∀ d, (s.chan d).attachment.map Attachment.gen = some g ↔ d = c := by
  constructor
  · intro h d
    rw [← State.mem_users, h, List.mem_singleton]
  · intro h
    have hn : (s.users g).Nodup := List.Nodup.filter (fun d => s.uses d g) (List.nodup_finRange 8)
    exact List.perm_singleton.1 ((List.perm_ext_iff_of_nodup hn (List.nodup_singleton c)).2 fun d => by
      rw [State.mem_users, h, List.mem_singleton])

/-- Settles O14: the request's own three branches. -/
theorem carrierRequestIsDecided : Obligations.CarrierRequestIsDecided := by
  intro s c k a ha hok
  obtain ⟨ch, halone⟩ := s.alone_request c k
  refine ⟨fun g hg => ?_, fun g hk hg hl => ?_, fun hk => ?_, halone.others, (works_request c s k).classes, by simpa using halone.reports⟩
  · have e := State.request_joins (c := c) hg fun g' hg' => hok.distinct g' g k hg' hg
    have hown := (s.alone_join c g).own
    have hj := Gen.joined_eq hg
    rw [e, State.gen_join, if_pos rfl, hj, hown]
    refine ⟨rfl, rfl, rfl, fun g' hne => by rw [State.gen_join, if_neg hne], rfl, rfl, fun hp => ?_, fun hp => ?_⟩
    · simp [Channel.attached, ha, hp]
    · simp [Channel.attached, ha, hp]
  · have hown := (s.alone_allocate c k g).own
    rw [State.request_allocates (c := c) hk hg hl, State.gen_allocate, if_pos rfl, hown]
    refine ⟨rfl, fun g' hne => by rw [State.gen_allocate, if_neg hne], rfl, rfl, by simp [Channel.attached, ha], fun hu => ?_⟩
    rw [State.users_eq_singleton]
    intro d
    by_cases hd : d = c
    · subst hd
      simp [hown, Channel.attached, Channel.attachment, ha]
    · rw [(s.alone_allocate c k g).others d hd]
      exact iff_of_false (State.users_eq_nil.1 hu d) hd
  · rw [State.request_waits hk, (s.alone_wait c k).own]
    exact ⟨rfl, rfl, rfl, by simp [Channel.waiting, ha], rfl⟩

/-! ### A channel asks for a defined class -/

theorem Channel.attached_eq {ch : Channel} (ha : ch.active = some a) (g : GenId) (gate : Gate) : Channel.attached g gate ch
    = { ch with
        state := .playing, waitTimer := none
        active := some { a with attach := some ⟨g, gate⟩, clock := match gate with | .opened => .running | .opening => .notStarted } } := by
  unfold Channel.attached
  rw [ha]
  rfl

theorem Channel.waiting_eq {ch : Channel} (ha : ch.active = some a) (hn : a.attach = none) : ch.waiting
    = { ch with
        state := .carrierWait, active := some { a with clock := .notStarted }
        waitTimer := if ch.config.waitLimit = 0x00#8 then none
          else some (ch.config.waitLimit.toNat * Config.clocksPerMilli) } := by
  have e : ({ a with attach := none, clock := .notStarted } : Active) = { a with clock := .notStarted } := by rw [← hn]
  simp only [Channel.waiting, ha, Option.map_some, e]

/-- A channel with the record `ch` and a job without an attachment asks CARB for a class, and the event ends (R81): what was the case at
CARB is told of a state that the channel's work so far has left alone there. -/
theorem State.asks_request {ch : Channel} (hcarb : u.carb = s.carb) (hch : ∃ x, u.chan c = { ch with state := x, active := some a })
    (hn : a.attach = none) : s.Asks (u.request c k).settle c k ch a := by
  obtain ⟨x, hch⟩ := hch
  have hgen : ∀ g, u.gen g = s.gen g := State.gen_congr hcarb
  have ha : (u.chan c).active = some a := by rw [hch]
  refine ⟨fun g hg hu => ?_, fun g hk hg hl => ?_, fun hk => ?_, ?_⟩
  · rw [State.request_joins (hgen g ▸ hg) fun g' h => hu g' (hgen g' ▸ h)]
    refine ⟨(State.alone_join u c g).chan.trans ?_, ?_, fun g' hne => ?_, ?_⟩
    · rw [hgen, Channel.attached_eq ha, hch]
      by_cases hp : (s.gen g).phase = 0 <;> simp [hp]
    · rw [State.gen_settle, State.gen_join, if_pos rfl, hgen, Gen.joined_eq hg]
    · rw [State.gen_settle, State.gen_join, if_neg hne, hgen]
    · rw [State.settle_carb, ← hcarb]
      rfl
  · rw [State.request_allocates (fun g' => hgen g' ▸ hk g') (hgen g ▸ hg) fun g' h => hgen g' ▸ hl g' h]
    refine ⟨(State.alone_allocate u c k g).chan.trans ?_, ?_, fun g' hne => ?_, ?_⟩
    · rw [Channel.attached_eq ha, hch]
    · rw [State.gen_settle, State.gen_allocate, if_pos rfl]
    · rw [State.gen_settle, State.gen_allocate, if_neg hne, hgen]
    · rw [State.settle_carb, ← hcarb]
      rfl
  · rw [State.request_waits fun g => hgen g ▸ hk g]
    refine ⟨(State.alone_wait u c k).chan.trans ?_, ?_, ?_⟩
    · rw [Channel.waiting_eq ha hn, hch]
    · rw [State.settle_carb, ← hcarb]
      rfl
    · rw [State.settle_carb, ← hcarb]
      rfl
  · rw [State.settle_carb, (works_request c u k).classes, hcarb]

/-! ### A job ends, and what the channel does next (R60) -/

theorem State.finishJob_of_held (o : JobOutcome) (ha : (s.chan c).active = some a) (hs : (s.chan c).state = .held) :
    s.finishJob c o = (s.endJob c o).modChan c Channel.heldWithoutJob := by
  rw [State.finishJob, State.afterEnd, State.chan_endJob_same o ha]
  exact if_pos hs

theorem State.finishJob_of_not_held (o : JobOutcome) (ha : (s.chan c).active = some a) (hs : (s.chan c).state ≠ .held) :
    s.finishJob c o = State.decideHead c (s.chan c).queue (s.endJob c o) := by
  rw [State.finishJob, State.afterEnd, State.chan_endJob_same o ha]
  change (if (s.chan c).state = .held then _ else (s.endJob c o).headDecision c) = _
  rw [if_neg hs, State.headDecision, State.chan_endJob_same o ha]
  rfl

/-- With nothing queued, the channel is IDLE. -/
theorem State.finishJob_idle (o : JobOutcome) (ha : (s.chan c).active = some a) (hs : (s.chan c).state ≠ .held)
    (hq : (s.chan c).queue = []) : s.finishJob c o = (s.endJob c o).modChan c Channel.becomeIdle := by
  rw [State.finishJob_of_not_held o ha hs, hq, State.decideHead_nil]

/-- The record of a channel whose job has ended with nothing queued. -/
def Channel.endedIdle (ch : Channel) : Channel :=
  { ch with state := .idle, active := none, queue := [], armed := none, holdRequest := false, waitTimer := none }

section Idle

variable (o : JobOutcome) (ha : (s.chan c).active = some a) (hn : a.attach = none) (hs : (s.chan c).state ≠ .held)
  (hq : (s.chan c).queue = [])

include ha hs hq

theorem State.ptab_finishJob_idle : (s.finishJob c o).ptab = (s.dropRef a.job.pattern).ptab := by
  rw [State.finishJob_idle o ha hs hq, State.modChan_ptab, State.ptab_endJob o ha]

include hn

theorem State.alone_finishJob_idle : s.Alone (s.finishJob c o) c (s.chan c).endedIdle (endReports s c a o) := by
  rw [State.finishJob_idle o ha hs hq]
  exact (State.alone_endJob_unattached o ha hn).thenChan _

theorem State.carb_finishJob_idle :
    (s.finishJob c o).carb = { s.carb with waitList := s.carb.waitList.filter fun w => w.chan ≠ c } := by
  rw [State.finishJob_idle o ha hs hq]
  exact (State.endJob_of_unattached o ha hn).1

end Idle

theorem endReports_of_ne {o : JobOutcome} (h : o ≠ .completed) : endReports s c a o
    = [⟨.ended, s.rpt.partTime, some c, a.job.number, byteOf a.job.pattern.val, o.byte⟩] :=
  if_pos (by simp [endReported, h])

/-! ### CARRIER_WAIT_EXPIRY (R85) -/

/-- Settles O18: the waiting job ends, and the channel with it leaves the wait list. -/
theorem carrierWaitExpires : Obligations.CarrierWaitExpires := by
  intro s c a n hs hst ha hn ht hq
  obtain ⟨t, hx, hearly, hdue⟩ := runEvent_next (s.chan c).waitExpired (fun u => u.finishJob c .carrierTimeout) s
  refine ⟨t, hx, fun h => hearly (by simp [Channel.waitExpired, hst, ht, h]), fun h => ?_⟩
  obtain rfl := hdue (by simp [Channel.waitExpired, hst, ht, h])
  have hne : (s.chan c).state ≠ .held := by simp [hst]
  have halone := State.alone_finishJob_idle .carrierTimeout ha hn hne hq
  have hcarb := State.carb_finishJob_idle .carrierTimeout ha hn hne hq
  have hw := works_finishJob c s .carrierTimeout
  rw [endReports_of_ne (by simp)] at halone
  refine ⟨halone.chan, halone.keepsChannels, (State.releases_active (State.ptab_finishJob_idle _ ha hne hq) ha hq).settle, ?_, ?_, ?_,
    halone.taking hs, hw.keepsAllBut hs (by simp) (by simp) (by simp) (by simp) (by simp), State.settled_settle _⟩
  all_goals rw [State.settle_carb, hcarb]

/-! ### CAR_CLEAR (R78) -/

/-- What two changes keep, both keep. -/
theorem State.KeepsAllBut.trans {changed : List Block} (h : s.KeepsAllBut t changed) (k : t.KeepsAllBut u changed) :
    s.KeepsAllBut u changed := by
  refine ⟨fun b hb => ?_, k.2.1.trans h.2.1, k.2.2.trans h.2.2⟩
  have hk := k.1 b hb
  have hh := h.1 b hb
  cases b <;> exact hk.trans hh

/-- The lines do not read the class table. -/
theorem State.Settled.setClass (hs : s.Settled) (k : Cls) (x : Option CarrierClass) : (s.setClass k x).Settled :=
  ⟨hs.outbox, fun c => (hs.outs c).trans (State.drivenLevel_eq (s := s) rfl (fun _ _ => rfl) fun _ _ _ _ => rfl).symm, hs.attention⟩

theorem State.keepsAllBut_setClass (s : State) (k : Cls) (x : Option CarrierClass) : s.KeepsAllBut (s.setClass k x) [.carriers] := by
  refine ⟨fun b hb => ?_, rfl, rfl⟩
  cases b <;> first | rfl | simp at hb

theorem Works.carrierClass (w : Works c s u) (k : Cls) : u.settle.carrierClass k = s.carrierClass k := by
  simp only [State.carrierClass, State.settle_carb, w.classes]

section CarClear

variable {cls : Byte} (hk : k.val = cls.toNat) (hg : ∀ g, (s.gen g).cls ≠ some k)

include hk

theorem ownerCarClear_inUse (h : ∃ g, (s.gen g).cls = some k) : ownerCarClear cls s = refuse s .inUse := by
  rw [ownerCarClear, index?_of_toNat hk.symm]
  exact if_pos (State.holder_isSome.2 h)

include hg

theorem ownerCarClear_undefined (h : s.carrierClass k = none) : ownerCarClear cls s = answerOk s [0x00#8] := by
  rw [ownerCarClear, index?_of_toNat hk.symm]
  dsimp only
  rw [State.holder_eq_none.2 hg, h]
  rfl

theorem ownerCarClear_defined (h : s.carrierClass k ≠ none) : ownerCarClear cls s
    = answerOk ((s.waitersFor k).foldl (fun t c => t.finishJob c .noCarrierClass) (s.setClass k none))
      [byteOf (s.waitersFor k).length] := by
  obtain ⟨x, hx⟩ := Option.ne_none_iff_exists'.1 h
  rw [ownerCarClear, index?_of_toNat hk.symm]
  dsimp only
  rw [State.holder_eq_none.2 hg, hx]
  rfl

end CarClear

theorem State.waitersFor_eq_nil (h : ∀ w ∈ s.carb.waitList, w.cls ≠ k) : s.waitersFor k = [] := by
  rw [State.waitersFor, List.filter_eq_nil_iff.2 fun w hw => by simpa using h w hw]
  rfl

/-- Settles O13: the class is undefined first, and then the job that waits for it ends. -/
theorem carClearDecides : Obligations.CarClearDecides := by
  intro s v cls k hs hx hk
  have hi : Instr.request (.carClear v cls) = some (v, .carClear cls) := rfl
  obtain ⟨t, ht⟩ := exec_next hi trivial hx
  have hs' : (s.setClass k none).Settled := hs.setClass k none
  refine ⟨t, ht, fun hg => refused_of_exec hs hi trivial hx ht (ownerCarClear_inUse hk hg),
    fun hg hn => answered_unchanged hs hi trivial hx ht (ownerCarClear_undefined hk hg hn), fun hg hd hw => ?_,
    fun c a hg hd hw hst ha hn hq => ?_⟩
  · have ho := ownerCarClear_defined hk hg hd
    rw [State.waitersFor_eq_nil hw] at ho
    obtain ⟨rfl, hans⟩ := answered_of_exec hi trivial hx ht ho rfl
    refine ⟨hans _ ?_, ?_, fun k' hk' => ?_, ?_, ?_⟩
    · rw [List.foldl_nil, State.settle_of_settled _ hs']
      exact (s.keepsAllBut_setClass k none).mono (by simp)
    · exact (State.carrierClass_settle _ k).trans (by simp)
    · exact (State.carrierClass_settle _ k').trans (by simp [hk'])
    · exact (congrArg Carriers.gens (State.settle_carb _)).trans rfl
    · exact (congrArg Carriers.waitList (State.settle_carb _)).trans rfl
  · have hwaits : s.waitersFor k = [c] := by simp [State.waitersFor, hw]
    have ho : ownerCarClear cls s = answerOk ((s.setClass k none).finishJob c .noCarrierClass) [0x01#8] := by
      rw [ownerCarClear_defined hk hg hd, hwaits]
      rfl
    have hne : (s.chan c).state ≠ .held := by simp [hst]
    have halone := State.alone_finishJob_idle (s := s.setClass k none) .noCarrierClass ha hn hne hq
    have hcarb := State.carb_finishJob_idle (s := s.setClass k none) .noCarrierClass ha hn hne hq
    have hptab := State.ptab_finishJob_idle (s := s.setClass k none) .noCarrierClass ha hne hq
    have hworks := works_finishJob c (s.setClass k none) .noCarrierClass
    rw [endReports_of_ne (by simp)] at halone
    obtain ⟨rfl, hans⟩ := answered_of_exec hi trivial hx ht ho hworks.link
    refine ⟨hans _ ?_, ?_, fun k' hk' => ?_, ?_, ?_, halone.chan, halone.keepsChannels,
      (State.releases_active (s := s) hptab ha hq).settle, halone.taking hs'⟩
    · exact ((s.keepsAllBut_setClass k none).mono (by simp)).trans
        (hworks.keepsAllBut hs' (by simp) (by simp) (by simp) (by simp) (by simp))
    · exact (hworks.carrierClass k).trans ((s.carrierClass_setClass k k none).trans (if_pos rfl))
    · exact (hworks.carrierClass k').trans ((s.carrierClass_setClass k k' none).trans (if_neg hk'))
    · exact (congrArg Carriers.gens ((State.settle_carb _).trans hcarb)).trans rfl
    · exact (congrArg Carriers.waitList ((State.settle_carb _).trans hcarb)).trans (by simp [hw])

end Sys2Proof.Machine
end

section
/-! PROOFS. The cycle of a generator: the end of its high portion, its cycle end, and the grant that follows when it becomes FREE (R76, R80,
R82, R88, R90, R100). -/

namespace Sys2Proof.Machine

variable {s t u : State} {c d : Chan} {g : GenId} {k : Cls} {x : CarrierClass} {a : Active}

/-! ### The moments (R80, R100) -/

theorem State.cycleDue_iff (hk : (s.gen g).cls = some k) (hx : s.carrierClass k = some x) :
    s.cycleDue g = true ↔ x.period ≤ (s.gen g).phase := by
  simp only [State.cycleDue, hk, State.periodOf, hx, decide_eq_true_eq]

theorem State.highDue_iff (hk : (s.gen g).cls = some k) (hx : s.carrierClass k = some x) :
    s.highDue g = true ↔ (s.gen g).inHigh = true ∧ x.high ≤ (s.gen g).phase := by
  simp only [State.highDue, hk, State.highOf, hx, Bool.and_eq_true, decide_eq_true_eq]

theorem Gen.eq_running {y : Gen} (hk : y.cls = some k) (hc : y.code = 0x01#8) : y = .running k y.phase y.inHigh := by
  cases y <;> simp_all [Gen.cls, Gen.code, Gen.phase, Gen.inHigh]

theorem Gen.eq_draining {y : Gen} (hk : y.cls = some k) (hc : y.code = 0x02#8) : y = .draining k y.phase y.inHigh := by
  cases y <;> simp_all [Gen.cls, Gen.code, Gen.phase, Gen.inHigh]

/-! ### Changes of generators and of channels, one at a time -/

/-- Only CARB has been written. -/
theorem State.Settled.keeps_carb (hs : s.Settled) (x : Carriers) {changed : List Block} (h : [.carriers, .outputs] ⊆ changed) :
    s.KeepsAllBut (State.settle { s with carb := x }) changed :=
  (hs.keepsAllBut (u := { s with carb := x }) (changed := [.carriers, .outputs]) rfl rfl (fun b hb _ _ _ => by cases b <;> first | rfl | simp at hb)
    (fun hb => by simp at hb) (fun _ => ⟨rfl, hs.outbox⟩) fun _ => ⟨rfl, congrArg oneProducer hs.outbox⟩).mono h

theorem State.modChan_self {f : Channel → Channel} (h : f (s.chan c) = s.chan c) : s.modChan c f = s := by
  simp only [State.modChan, State.setChan, h]
  congr 1
  exact Vector.set_getElem_self _

/-- Changes of several channels' records write the channels alone. -/
theorem State.foldl_modChan (f : Channel → Channel) (cs : List Chan) (s : State) :
    ∃ chans, cs.foldl (fun s c => s.modChan c f) s = { s with chans := chans } := by
  induction cs generalizing s with
  | nil => exact ⟨s.chans, rfl⟩
  | cons c cs ih => exact ih (s.modChan c f)

theorem State.chan_foldl_modChan (f : Channel → Channel) {cs : List Chan} (hn : cs.Nodup) (s : State) (d : Chan) :
    (cs.foldl (fun s c => s.modChan c f) s).chan d = if d ∈ cs then f (s.chan d) else s.chan d := by
  induction cs generalizing s with
  | nil => simp
  | cons c cs ih =>
    obtain ⟨hc, hn⟩ := List.nodup_cons.1 hn
    rw [List.foldl_cons, ih hn, State.chan_modChan]
    by_cases h : d = c
    · subst h
      simp [hc]
    · simp [h]

/-! ### A cycle end, user by user -/

theorem State.cycleEnd_running {p : Nat} {b : Bool} (h : s.gen g = .running k p b) :
    s.cycleEnd g = (s.setGen g (.running k 0 true)).forEach (s.users g) (State.cycleEndUser g) := by
  rw [State.cycleEnd, h]

theorem State.cycleEnd_draining {p : Nat} {b : Bool} (h : s.gen g = .draining k p b) : s.cycleEnd g = s.releaseGen g := by
  rw [State.cycleEnd, h]

section User

variable (ha : (s.chan c).active = some a)

include ha

/-- An opening gate opens (R82). -/
theorem State.cycleEndUser_opening {g' : GenId} (hat : a.attach = some ⟨g', .opening⟩) :
    State.cycleEndUser g c s = s.modChan c (Channel.attached g .opened) := by
  simp only [State.cycleEndUser, ha, hat]

variable {g' : GenId} (hat : a.attach = some ⟨g', .opened⟩)

include hat

/-- A hold request takes effect (R73). -/
theorem State.cycleEndUser_held (hr : (s.chan c).holdRequest = true) :
    State.cycleEndUser g c s = s.holdJob c .playing .inCarrier := by
  simp only [State.cycleEndUser, ha, hat, hr, if_true]

/-- A gate closes (R56, R64). -/
theorem State.cycleEndUser_closing (hr : (s.chan c).holdRequest = false)
    (h : a.remaining = 0 ∨ a.stop.map PendingStop.boundary = some .now) : State.cycleEndUser g c s = s.stepEnd c := by
  simp only [State.cycleEndUser, ha, hat, hr, if_pos h]
  exact if_neg Bool.false_ne_true

/-- The job plays on with an open gate (R56). -/
theorem State.cycleEndUser_playsOn (hr : (s.chan c).holdRequest = false) (hrem : a.remaining ≠ 0)
    (hstop : a.stop.map PendingStop.boundary ≠ some .now) : State.cycleEndUser g c s = s := by
  simp only [State.cycleEndUser, ha, hat, hr, if_neg (not_or.2 ⟨hrem, hstop⟩)]
  exact if_neg Bool.false_ne_true

end User

/-- What a cycle end does to a user whose gate does not close: an opening gate opens. -/
def Channel.openGate (g : GenId) (ch : Channel) : Channel :=
  if ch.attachment = some ⟨g, .opening⟩ then ch.served g else ch

/-- A user's gate does not close at the cycle end. -/
def Channel.KeepsGate (g : GenId) (ch : Channel) : Prop :=
  ch.attachment.map Attachment.gen = some g ∧ ∀ a, ch.active = some a → a.attach = some ⟨g, .opened⟩ →
    a.remaining ≠ 0 ∧ a.stop.map PendingStop.boundary ≠ some .now ∧ ch.holdRequest = false

theorem State.cycleEndUser_keepsGate (h : (s.chan c).KeepsGate g) :
    State.cycleEndUser g c s = s.modChan c (Channel.openGate g) := by
  obtain ⟨hu, hk⟩ := h
  cases ha : (s.chan c).active with
  | none => simp [Channel.attachment, ha] at hu
  | some a =>
    obtain ⟨⟨g', gate⟩, hat, rfl⟩ : ∃ t, a.attach = some t ∧ t.gen = g := by simpa [Channel.attachment, ha] using hu
    have hatt : (s.chan c).attachment = some ⟨g', gate⟩ := by simp [Channel.attachment, ha, hat]
    cases gate with
    | opening =>
      rw [State.cycleEndUser_opening ha hat, State.modChan, State.modChan, Channel.openGate, if_pos hatt]
      rfl
    | opened =>
      obtain ⟨h1, h2, h3⟩ := hk a ha hat
      rw [State.cycleEndUser_playsOn ha hat h3 h1 h2, State.modChan_self]
      exact if_neg (by rw [hatt]; simp)

/-- Users whose gates do not close, one after the other. -/
theorem State.foldl_cycleEndUser {cs : List Chan} (hn : cs.Nodup) (h : ∀ c ∈ cs, (s.chan c).KeepsGate g) :
    cs.foldl (fun s c => State.cycleEndUser g c s) s = cs.foldl (fun s c => s.modChan c (Channel.openGate g)) s := by
  induction cs generalizing s with
  | nil => rfl
  | cons c cs ih =>
    obtain ⟨hc, hn⟩ := List.nodup_cons.1 hn
    rw [List.foldl_cons, List.foldl_cons, State.cycleEndUser_keepsGate (h c List.mem_cons_self)]
    refine ih hn fun d hd => ?_
    rw [State.chan_modChan, if_neg (by rintro rfl; exact hc hd)]
    exact h d (List.mem_cons_of_mem _ hd)

theorem State.users_nodup (s : State) (g : GenId) : (s.users g).Nodup :=
  List.Nodup.filter (fun d => s.uses d g) (List.nodup_finRange 8)

/-- A cycle end at which no gate closes: the next cycle begins, every opening gate opens, and nothing else changes but the count of free
orders. -/
theorem State.cycleEnd_keepsGates {p : Nat} {b : Bool} (hg : s.gen g = .running k p b)
    (h : ∀ c ∈ s.users g, (s.chan c).KeepsGate g) : ∃ chans n,
      s.cycleEnd g = { s with carb := (s.setGen g (.running k 0 true)).carb, chans := chans, choices := n } ∧
      ∀ d, (s.cycleEnd g).chan d = (s.chan d).openGate g := by
  rw [State.cycleEnd_running hg, State.forEach]
  generalize ho : (s.setGen g (.running k 0 true)).ordered (s.users g) = o
  have hperm : o.1.Perm (s.users g) := ho ▸ State.ordered_perm (s.setGen g (.running k 0 true)) (s.users g)
  obtain ⟨n, hn⟩ : ∃ n, o.2 = { s with carb := (s.setGen g (.running k 0 true)).carb, choices := n } := by
    rcases (s.setGen g (.running k 0 true)).ordered_snd (s.users g) with e | e <;> rw [ho] at e <;> exact ⟨_, e⟩
  have hch : ∀ d, o.2.chan d = s.chan d := fun d => by rw [hn]; rfl
  have hnd : o.1.Nodup := hperm.nodup_iff.2 (s.users_nodup g)
  rw [State.foldl_cycleEndUser hnd fun c hc => by rw [hch]; exact h c (hperm.mem_iff.1 hc)]
  obtain ⟨chans, hc⟩ := State.foldl_modChan (Channel.openGate g) o.1 o.2
  refine ⟨chans, n, hc.trans (by rw [hn]), fun d => ?_⟩
  rw [State.chan_foldl_modChan _ hnd, hch]
  split
  next => rfl
  next hd =>
    refine (if_neg fun hatt => hd (hperm.mem_iff.2 (State.mem_users.2 ?_))).symm
    rw [hatt]
    rfl

theorem Channel.openGate_of_ne {ch : Channel} (h : ch.attachment ≠ some ⟨g, .opening⟩) : ch.openGate g = ch :=
  if_neg h

theorem Channel.openGate_of_opening {ch : Channel} (ha : ch.active = some a) (hat : a.attach = some ⟨g, .opening⟩) :
    ch.openGate g = ch.served g :=
  if_pos (by simp [Channel.attachment, ha, hat])

theorem State.gen_setGen_same (s : State) (g : GenId) (y : Gen) : (s.setGen g y).gen g = y := by
  rw [State.gen_setGen, if_pos rfl]

theorem State.gen_setGen_other {g' : GenId} (s : State) (y : Gen) (h : g' ≠ g) : (s.setGen g y).gen g' = s.gen g' := by
  rw [State.gen_setGen, if_neg h]

/-- At the end of a cycle at which no gate closes. -/
theorem State.Settled.keeps_cycleEnd {p : Nat} {b : Bool} (hs : s.Settled) (hg : s.gen g = .running k p b)
    (h : ∀ c ∈ s.users g, (s.chan c).KeepsGate g) :
    (s.cycleEnd g).settle.carb = (s.setGen g (.running k 0 true)).carb ∧
      (∀ d, (s.cycleEnd g).settle.chan d = (s.chan d).openGate g) ∧
      s.KeepsAllBut (s.cycleEnd g).settle [.channels, .carriers, .outputs, .choices] := by
  obtain ⟨chans, n, e, hd⟩ := State.cycleEnd_keepsGates hg h
  refine ⟨(State.settle_carb _).trans (by rw [e]), fun d => (State.chan_settle _ d).trans (hd d), ?_⟩
  rw [e]
  exact hs.keepsAllBut rfl rfl (fun b hb _ _ _ => by cases b <;> first | rfl | simp at hb) (fun hb => by simp at hb)
    (fun _ => ⟨rfl, hs.outbox⟩) fun hb => by simp at hb

/-- The one user of a generator keeps its gate: no free order is drawn. -/
theorem State.cycleEnd_of_user {p : Nat} {b : Bool} (hg : s.gen g = .running k p b) (hu : s.users g = [c]) :
    s.cycleEnd g = State.cycleEndUser g c (s.setGen g (.running k 0 true)) := by
  rw [State.cycleEnd_running hg, hu, State.forEach_singleton]

/-- Settles O15: the cases of the cycle end, each by what it does to the generator and to its users. -/
theorem carrierCycle : Obligations.CarrierCycle := by
  intro s g k x hs hk hx
  refine ⟨?_, ?_⟩
  · obtain ⟨t, ht, hearly, hdue⟩ := runEvent_next (s.highDue g) (fun u => u.setGen g (u.gen g).endHigh) s
    refine ⟨t, ht, fun h => hearly ?_, fun h1 h2 => ?_⟩
    · rw [← Bool.not_eq_true, State.highDue_iff hk hx]
      rintro ⟨h1, h2⟩
      rcases h with h | h
      · exact Bool.false_ne_true (h.symm.trans h1)
      · omega
    · obtain rfl := hdue ((State.highDue_iff hk hx).2 ⟨h1, h2⟩)
      have hgen : (State.settle (s.setGen g (s.gen g).endHigh)).gen g = (s.gen g).endHigh :=
        (State.gen_settle _ g).trans (s.gen_setGen_same g _)
      rw [hgen]
      refine ⟨?_, ?_, ?_, ?_, fun g' hne => (State.gen_settle _ g').trans (s.gen_setGen_other _ hne), ?_, ?_,
        hs.keeps_carb _ (by simp), State.settled_settle _⟩
      · cases s.gen g <;> rfl
      · rw [Gen.endHigh_cls, hk]
      · cases s.gen g <;> rfl
      · cases s.gen g <;> rfl
      · exact (congrArg Carriers.classes (State.settle_carb _)).trans rfl
      · exact (congrArg Carriers.waitList (State.settle_carb _)).trans rfl
  · obtain ⟨t, ht, hearly, hdue⟩ := runEvent_next (s.cycleDue g) (fun u => u.cycleEnd g) s
    have hend : x.period ≤ (s.gen g).phase → t = (s.cycleEnd g).settle := fun h => hdue ((State.cycleDue_iff hk hx).2 h)
    refine ⟨t, ht, fun h => hearly ?_, fun h hc hw => ?_, fun h hc hkeep => ?_, fun c a h hc hu ha => ⟨fun hat => ?_, fun hat hrem hstop hreq => ?_⟩⟩
    · rw [← Bool.not_eq_true, State.cycleDue_iff hk hx]
      omega
    · obtain rfl := hend h
      have e : s.cycleEnd g = s.setGen g .free :=
        (State.cycleEnd_draining (Gen.eq_draining hk hc)).trans (State.grant_of_nobody hw)
      rw [e]
      exact ⟨(State.gen_settle _ g).trans (s.gen_setGen_same g _), fun g' hne => (State.gen_settle _ g').trans (s.gen_setGen_other _ hne),
        (congrArg Carriers.classes (State.settle_carb _)).trans rfl, (congrArg Carriers.waitList (State.settle_carb _)).trans hw,
        hs.keeps_carb _ (by simp), State.settled_settle _⟩
    · obtain rfl := hend h
      have hgates : ∀ c ∈ s.users g, (s.chan c).KeepsGate g := fun c hc' =>
        ⟨State.mem_users.1 hc', fun a ha hat => hkeep c a hc' ha hat⟩
      obtain ⟨hcarb, hch, hkept⟩ := hs.keeps_cycleEnd (Gen.eq_running hk hc) hgates
      refine ⟨(State.gen_congr (t := (s.cycleEnd g).settle) hcarb g).trans (s.gen_setGen_same g _),
        fun g' hne => (State.gen_congr hcarb g').trans (s.gen_setGen_other _ hne), (congrArg Carriers.classes hcarb).trans rfl,
        (congrArg Carriers.waitList hcarb).trans rfl, fun c a ha hat => (hch c).trans (Channel.openGate_of_opening ha hat),
        fun c hne => (hch c).trans (Channel.openGate_of_ne hne), hkept, State.settled_settle _⟩
    · obtain rfl := hend h
      have e : s.cycleEnd g = (s.setGen g (.running k 0 true)).modChan c (Channel.attached g .opened) := by
        rw [State.cycleEnd_of_user (Gen.eq_running hk hc) hu]
        exact State.cycleEndUser_opening (s := s.setGen g (.running k 0 true)) ha hat
      have halone : s.Alone (s.cycleEnd g) c (Channel.attached g .opened (s.chan c)) [] := by
        rw [e]
        exact (State.Alone.tables (s := s) (c := c) (u := s.setGen g _) rfl rfl rfl).thenChan _
      have hcarb : (s.cycleEnd g).settle.carb = (s.setGen g (.running k 0 true)).carb := by rw [State.settle_carb, e]; rfl
      refine ⟨(State.gen_congr (t := (s.cycleEnd g).settle) hcarb g).trans (s.gen_setGen_same g _),
        fun g' hne => (State.gen_congr hcarb g').trans (s.gen_setGen_other _ hne), (congrArg Carriers.classes hcarb).trans rfl,
        (congrArg Carriers.waitList hcarb).trans rfl, halone.chan.trans (Channel.attached_eq ha g .opened), halone.keepsChannels, ?_, State.settled_settle _⟩
      rw [e]
      exact hs.keepsAllBut rfl rfl (fun b hb _ _ _ => by cases b <;> first | rfl | simp at hb) (fun hb => by simp at hb)
        (fun _ => ⟨rfl, hs.outbox⟩) fun _ => ⟨rfl, congrArg oneProducer hs.outbox⟩
    · obtain rfl := hend h
      have e : s.cycleEnd g = s.setGen g (.running k 0 true) := by
        rw [State.cycleEnd_of_user (Gen.eq_running hk hc) hu]
        exact State.cycleEndUser_playsOn (s := s.setGen g (.running k 0 true)) ha hat hreq hrem (by simp [hstop])
      rw [e]
      exact ⟨(State.gen_settle _ g).trans (s.gen_setGen_same g _), fun g' hne => (State.gen_settle _ g').trans (s.gen_setGen_other _ hne),
        (congrArg Carriers.classes (State.settle_carb _)).trans rfl, (congrArg Carriers.waitList (State.settle_carb _)).trans rfl,
        hs.keeps_carb _ (by simp), State.settled_settle _⟩

/-- Settles O17: the drain ends, and the generator is granted to the oldest waiter's class. -/
theorem freeGeneratorIsGranted : Obligations.FreeGeneratorIsGranted := by
  intro s g k x high w rest hs hwait hg hx hw
  have hk : (s.gen g).cls = some k := by rw [hg]; rfl
  have hdue : s.cycleDue g = true := (State.cycleDue_iff hk hx).2 (by rw [hg]; exact le_refl _)
  obtain ⟨t, ht, -, hat⟩ := runEvent_next (s.cycleDue g) (fun u => u.cycleEnd g) s
  refine ⟨t, ht, ?_⟩
  rw [hat hdue]
  obtain ⟨h1, h2, h3, h4, h5, h6⟩ := State.grant_of_waiter (s := s.setGen g .free) (g := g) hw
  rw [State.cycleEnd_draining hg, State.releaseGen]
  refine ⟨(State.gen_settle _ g).trans h1, fun g' hne => (State.gen_settle _ g').trans ((h2 g' hne).trans (s.gen_setGen_other _ hne)),
    (congrArg Carriers.classes (State.settle_carb _)).trans h3,
    (congrArg Carriers.waitList (State.settle_carb _)).trans (h4.trans (by rw [State.setGen_waitList, hw])),
    fun y hy hc => ?_, fun c hc => (State.chan_settle _ c).trans (h6 c fun y hy => hc y (hw ▸ hy)), ?_, State.settled_settle _⟩
  · have hy : y ∈ s.carb.waitList := hw ▸ hy
    exact (State.chan_settle _ y.chan).trans ((h5 y hy hc).trans (Channel.granted_of_waiting (hwait.waiting y hy)))
  · exact (works_releaseGen w.chan s g).keepsAllBut hs (by simp) (fun _ => State.ptab_releaseGen s g) (by simp) (by simp)
      fun _ => (State.outbox_releaseGen s g).trans hs.outbox

end Sys2Proof.Machine
end

section
/-! PROOFS. The head decision (R23) and the start of a job whose step 0 is a steady one (R31, R50), told exactly; and the events that come to
them by a dropped or a started head: TRIGGER_WINDOW_EXPIRY, CANCEL and GO (R34, R36, R41). -/

namespace Sys2Proof.Machine

variable {s t u : State} {c : Chan} {ch : Channel} {made : List Report}

/-! ### Entries whose reference counts alone may differ (R8) -/

theorem Entry.ready_of_clearRefs {e e' : Entry} {h : Header} {steps : List Step} {n : Nat} (hc : e'.clearRefs = e.clearRefs)
    (he : e = .ready h steps n) : ∃ m, e' = .ready h steps m := by
  subst he
  cases e' with
  | ready h' steps' m =>
    simp only [Entry.clearRefs, Entry.ready.injEq, and_true] at hc
    exact ⟨m, by rw [hc.1, hc.2]⟩
  | _ => cases hc

theorem State.SteadyHead.congr {q : List Job} (h : s.SteadyHead q) (he : ∀ p, (u.entry p).clearRefs = (s.entry p).clearRefs) :
    u.SteadyHead q := by
  intro j rest hq hn
  obtain ⟨h', x, steps, n, hj, hk⟩ := h j rest hq hn
  obtain ⟨m, hm⟩ := Entry.ready_of_clearRefs (he j.pattern) hj
  exact ⟨h', x, steps, m, hm, hk⟩

/-! ### The start of a job (R31, R49, R50) -/

/-- A job that has started and entered its step 0, a steady one. -/
def Job.started (j : Job) (repeats : Byte) (cfg : LineConfig) (length : Nat) : Active :=
  ⟨j, 0, 0x00#8, j.override.getD repeats, length, .running, none, none, cfg.readback && decide (800 ≤ length)⟩

/-- The record of a channel whose head has started and entered a steady step 0. -/
def Channel.started (j : Job) (rest : List Job) (repeats : Byte) (length : Nat) (ch : Channel) : Channel :=
  { ch with state := .playing, queue := rest, armed := none, active := some (j.started repeats ch.config length) }

/-- The MARK report at the entry of step 0, where one is made (R59). -/
def firstMark (s : State) (c : Chan) (j : Job) (x : Step) : List Report :=
  if x.mark && j.flags.marks then [⟨.mark, s.rpt.partTime, some c, j.number, 0x00#8, byteOf j.pattern.val⟩] else []

section Start

variable {j : Job} {h : Header} {x : Step} {steps : List Step} {n : Nat} (rest : List Job)
  (he : s.entry j.pattern = .ready h (x :: steps) n)

include he

theorem State.startJob_active : ((s.startJob c j rest).chan c).active = some (j.starting h.repeats) := by
  rw [(s.alone_startJob c j rest).own, State.repeatsOf, he]
  rfl

theorem State.startJob_currentStep : (s.startJob c j rest).currentStep (j.starting h.repeats) = some x := by
  have e : (s.startJob c j rest).entry j.pattern = .ready h (x :: steps) n :=
    (State.entry_congr (State.ptab_startJob s c j rest) _).trans he
  simp only [State.currentStep, Job.starting, e]
  rfl

theorem State.startJob_stepLength : (s.startJob c j rest).stepLength j.pattern x = x.duration.toNat * h.timeUnit.clocks := by
  have e : (s.startJob c j rest).entry j.pattern = .ready h (x :: steps) n :=
    (State.entry_congr (State.ptab_startJob s c j rest) _).trans he
  simp only [State.stepLength, State.unitClocks, e]

/-- The state after a job has started and entered a steady step 0. -/
theorem State.enterStep_startJob (hk : ∀ k, x.kind ≠ .carrier k) : (s.startJob c j rest).enterStep c
    = (((s.startJob c j rest).modChan c (Channel.enterSteady (x.duration.toNat * h.timeUnit.clocks))).markEntry c
        (j.starting h.repeats) x, none) := by
  rw [State.enterStep_steady (State.startJob_active rest he) (State.startJob_currentStep rest he) hk]
  have hl := State.startJob_stepLength (c := c) rest he
  simp only [Job.starting, hl]

theorem State.alone_start : s.Alone
    (((s.startJob c j rest).modChan c (Channel.enterSteady (x.duration.toNat * h.timeUnit.clocks))).markEntry c
      (j.starting h.repeats) x) c
    (Channel.started j rest h.repeats (x.duration.toNat * h.timeUnit.clocks) (s.chan c))
    (startReports s c j ++ firstMark s c j x) := by
  have hs := (s.alone_startJob c j rest).thenChan (Channel.enterSteady (x.duration.toNat * h.timeUnit.clocks))
  have hm := State.alone_markEntry ((s.startJob c j rest).modChan c (Channel.enterSteady (x.duration.toNat * h.timeUnit.clocks))) c
    (j.starting h.repeats) x
  have ht := hs.trans hm
  rw [hs.own] at ht
  have er : markReports ((s.startJob c j rest).modChan c (Channel.enterSteady (x.duration.toNat * h.timeUnit.clocks))) c
      (j.starting h.repeats) x = firstMark s c j x := by
    have : (s.startJob c j rest).rpt = s.rpt := s.rpt_startJob c j rest
    simp only [markReports, firstMark, State.modChan_rpt, this, Job.starting]
    rfl
  rw [er] at ht
  have eq : s.repeatsOf j.pattern = h.repeats := by rw [State.repeatsOf, he]
  rw [eq] at ht
  exact ht

end Start

/-! ### The head decision (R23) -/

section Head

variable {q : List Job}

/-- Over a queue without a NOW head whose step 0 is a carrier step, the channel alone changes and gives up no reference. -/
theorem State.alone_decideHead (c : Chan) (h : s.SteadyHead q) : ∃ ch made, s.Alone (State.decideHead c q s) c ch made ∧
    (State.decideHead c q s).carb = s.carb ∧ (State.decideHead c q s).ptab = s.ptab := by
  cases q with
  | nil => exact ⟨_, _, .modChan s c _, rfl, rfl⟩
  | cons j rest =>
    by_cases hn : j.start = .now
    · obtain ⟨h', x, steps, n, he, hk⟩ := h j rest rfl hn
      rw [State.decideHead_starts rest hn he hk]
      exact ⟨_, _, State.alone_start rest he, by simp [State.carb_startJob], by simp⟩
    · rw [State.decideHead_arms c rest s hn]
      exact ⟨_, _, .modChan s c _, rfl, rfl⟩

/-- The head decision at the end of an event in which the channel has worked before: `u` is what that work has left. -/
theorem State.Alone.takesHead {ch₀ : Channel} (hu : s.Alone u c ch₀ made) (hs : s.Settled)
    (he : ∀ p, (u.entry p).clearRefs = (s.entry p).clearRefs) (hch : ∃ x y, ch₀ = { ch with state := x, queue := y }) :
    s.TakesHead (State.decideHead c q u).settle c ch q made := by
  obtain ⟨x, y, rfl⟩ := hch
  refine ⟨fun hq => ?_, fun j rest a hq hn ha hnum => ?_, fun j rest hq hn ha => ?_, fun j rest h x steps n hq hn hj hk => ?_⟩
  · subst hq
    have k := hu.thenChan Channel.becomeIdle
    exact ⟨k.chan, k.taking hs⟩
  · subst hq
    rw [State.decideHead_arms c rest u hn]
    have k := hu.thenChan (Channel.armFor j rest)
    refine ⟨k.chan.trans ?_, k.taking hs⟩
    simp only [Channel.armFor, ha, armHead_again hnum]
  · subst hq
    rw [State.decideHead_arms c rest u hn]
    have k := hu.thenChan (Channel.armFor j rest)
    refine ⟨k.chan.trans ?_, k.taking hs⟩
    rw [Channel.armFor, armHead_afresh ha]
    rfl
  · subst hq
    obtain ⟨m, hm⟩ := Entry.ready_of_clearRefs (he j.pattern) hj
    rw [State.decideHead_starts rest hn hm hk]
    have k := hu.trans (State.alone_start (c := c) rest hm)
    refine ⟨k.chan.trans ?_, (k.taking hs).trans ?_⟩
    · rw [hu.own]
      rfl
    · rw [← List.append_assoc, startReports, firstMark, hu.rpt, hn]
      rfl

theorem State.TakesHead.withLink (h : s.TakesHead t c ch q made) (l : HostLink) : s.TakesHead { t with link := l } c ch q made :=
  ⟨h.empty, h.armsAgain, h.arms, h.starts⟩

end Head

/-- The line of a channel that stays in its state with its active job as it was. -/
theorem Works.drivenLevel_of_job (w : Works c s u) (hst : (u.chan c).state = (s.chan c).state)
    (ha : (u.chan c).active = (s.chan c).active) (hg : u.carb.gens = s.carb.gens) : u.drivenLevel c = s.drivenLevel c := by
  have hgen : ∀ g, u.gen g = s.gen g := fun g => by simp only [State.gen, hg]
  have hp : ∀ a, u.playingLevel (s.chan c).config a = s.playingLevel (s.chan c).config a := fun a => by
    unfold State.playingLevel
    simp only [State.currentStep_of_clearRefs w.entries a, hgen]
  simp only [State.drivenLevel, State.level, hst, ha, w.own.config, hp]

/-! ### A queued job is dropped, and the head decision where it was the armed head (R40) -/

section DropAndDecide

variable {j : Job} (r : DropReason)

theorem State.dropAndDecide_behind (h : (s.chan c).state ≠ .armed ∨ ∃ a, (s.chan c).armed = some a ∧ a.number ≠ j.number) :
    s.dropAndDecide c j r = s.dropJob c j r := by
  have hl : ((s.dropJob c j r).chan c).headLost = false := by
    rw [(s.alone_dropJob c j r).own]
    rcases h with h | ⟨a, ha, hne⟩
    · simp [Channel.headLost, Channel.withoutJob, h]
    · simp [Channel.headLost, Channel.withoutJob, ha, hne]
  unfold State.dropAndDecide
  simp only [hl]
  exact if_neg Bool.false_ne_true

theorem State.dropAndDecide_head (hs : (s.chan c).state = .armed) {a : ArmedHead} (ha : (s.chan c).armed = some a)
    (hn : a.number = j.number) :
    s.dropAndDecide c j r = State.decideHead c (dropFromQueue (s.chan c).queue j.number) (s.dropJob c j r) := by
  have hown := (s.alone_dropJob c j r).own
  have hl : ((s.dropJob c j r).chan c).headLost = true := by
    rw [hown]
    simp [Channel.headLost, Channel.withoutJob, ha, hn, hs]
  refine (if_pos hl).trans ?_
  rw [State.headDecision, hown]
  rfl

/-- The armed head is dropped, and no NOW job with a carrier step 0 stands behind it: the channel takes the head decision, and nothing else
changes but the job's reference. -/
theorem State.dropAndDecide_takesHead {rest : List Job} (hs : s.Settled) (hst : (s.chan c).state = .armed) {a : ArmedHead}
    (ha : (s.chan c).armed = some a) (hn : a.number = j.number) (hq : (s.chan c).queue = j :: rest) (hst' : s.SteadyHead rest) :
    s.TakesHead (s.dropAndDecide c j r).settle c { s.chan c with armed := none } rest
        [⟨.dropped, s.rpt.partTime, some c, j.number, byteOf j.pattern.val, r.code⟩] ∧
      s.KeepsChannelsBut (s.dropAndDecide c j r).settle c ∧
      s.Releases (s.dropAndDecide c j r).settle (fun q => if q = j.pattern then 1 else 0) ∧
      s.KeepsAllBut (s.dropAndDecide c j r).settle [.patterns, .channels, .outputs, .reports] := by
  have hw := works_dropAndDecide c s j r
  have hdrop := s.alone_dropJob c j r
  have hwd := works_dropJob c s j r
  have e : s.dropAndDecide c j r = State.decideHead c rest (s.dropJob c j r) := by
    rw [State.dropAndDecide_head r hst ha hn, hq, dropFromQueue, List.eraseP_cons_of_pos (by simp)]
  rw [e] at hw ⊢
  obtain ⟨ch, made, halone, hcarb, hptab⟩ := State.alone_decideHead c (hst'.congr hwd.entries)
  refine ⟨hdrop.takesHead hs hwd.entries ⟨(s.chan c).state, rest, ?_⟩, (hdrop.trans halone).keepsChannels,
    (State.releases_one (t := (s.dropJob c j r)) rfl).congr ((State.settle_ptab _).trans hptab) fun _ => rfl, ?_⟩
  · simp [Channel.withoutJob, hq, ha, hn, dropFromQueue]
  · exact hw.keepsAllBut hs (by simp) (by simp) (fun _ => hcarb) (by simp) (by simp)

end DropAndDecide

/-- Settles O29: the armed head is dropped, and what stands behind it is the head now. -/
theorem triggerWindowExpires : Obligations.TriggerWindowExpires := by
  intro s c j rest n fresh hs hst hq ha
  obtain ⟨t, ht, hearly, hdue⟩ := runEvent_next (s.chan c).windowExpired (fun u => u.expireWindow c) s
  refine ⟨t, ht, fun h => hearly (by simp [Channel.windowExpired, ha, h]), fun h hsteady => ?_⟩
  obtain rfl := hdue (by simp [Channel.windowExpired, hst, ha, h])
  have e : s.expireWindow c = s.dropAndDecide c j .triggerTimeout := by rw [State.expireWindow, hq]
  obtain ⟨h1, h2, h3, h4⟩ := State.dropAndDecide_takesHead .triggerTimeout hs hst ha rfl hq hsteady
  rw [e]
  exact ⟨h1, h2, h3, h4, State.settled_settle _⟩

/-! ### CANCEL (R41) -/

section Cancel

variable {q : List Job} {n : Half}

theorem dropFromQueue_eq_filter (h : (q.map Job.number).Nodup) : dropFromQueue q n = q.filter fun x => x.number ≠ n := by
  induction q with
  | nil => rfl
  | cons j q ih =>
    obtain ⟨hj, hq⟩ := List.nodup_cons.1 h
    by_cases e : j.number = n
    · have hall : ∀ x ∈ q, decide (x.number ≠ n) = true := fun x hx => by
        simpa using fun hx' => hj (List.mem_map.2 ⟨x, hx, hx'.trans e.symm⟩)
      rw [dropFromQueue, List.eraseP_cons_of_pos (by simp [e]), List.filter_cons_of_neg (by simp [e]), List.filter_eq_self.2 hall]
    · rw [dropFromQueue, List.eraseP_cons_of_neg (by simp [e]), List.filter_cons_of_pos (by simp [e])]
      exact congrArg _ (ih hq)

theorem find?_number {j : Job} (h : (q.map Job.number).Nodup) (hj : j ∈ q) (hn : j.number = n) :
    q.find? (fun x => x.number == n) = some j := by
  induction q with
  | nil => cases hj
  | cons i q ih =>
    obtain ⟨hi, hq⟩ := List.nodup_cons.1 h
    rcases List.mem_cons.1 hj with rfl | hj
    · simp [hn]
    · have hne : i.number ≠ n := fun e => hi (List.mem_map.2 ⟨j, hj, hn.trans e.symm⟩)
      rw [List.find?_cons_of_neg (by simp [hne]), ih hq hj]

theorem State.NumbersOk.queue (h : s.NumbersOk) (c : Chan) : ((s.chan c).queue.map Job.number).Nodup :=
  ((List.nodup_flatMap.1 h.unique).1 c (List.mem_finRange c)).sublist (List.sublist_append_right _ _)

variable {channel : Byte} (hc : c.val = channel.toNat) (hn : n ≠ 0#16)

include hc hn

theorem ownerCancel_queued {j : Job} (h : s.NumbersOk) (hj : j ∈ (s.chan c).queue) (hjn : j.number = n) :
    ownerCancel channel n s = answerOk (s.dropAndDecide c j .cancelled) [] := by
  simp only [ownerCancel, index?_of_toNat hc.symm, if_neg hn, find?_number (h.queue c) hj hjn]

theorem ownerCancel_absent (hj : ∀ j ∈ (s.chan c).queue, j.number ≠ n) : ownerCancel channel n s
    = if (s.chan c).active.map (fun a => a.job.number) = some n then refuse s .badState else refuse s .notFound := by
  have e : (s.chan c).queue.find? (fun x => x.number == n) = none := by simpa using hj
  simp only [ownerCancel, index?_of_toNat hc.symm, if_neg hn, e]

end Cancel

/-- Settles O24: a queued job of that number is the only one, and its drop decides the head where it was the armed head. -/
theorem cancelDecides : Obligations.CancelDecides := by
  intro s v channel number c hs hnum hx hc hn
  have hi : Instr.request (.cancel v channel number) = some (v, .cancel channel number) := rfl
  obtain ⟨t, ht⟩ := exec_next hi trivial hx
  refine ⟨t, ht, fun j hj hjn => ?_, fun hj ⟨a, ha, hjn⟩ => ?_, fun hj ha => ?_⟩
  · obtain ⟨rfl, hans⟩ := answered_of_exec hi trivial hx ht (ownerCancel_queued hc hn hnum hj hjn)
      (works_dropAndDecide c s j .cancelled).link
    have hw := works_dropAndDecide c s j .cancelled
    have hdrop := s.alone_dropJob c j .cancelled
    subst hjn
    refine ⟨fun hbehind => ?_, fun hst ⟨a, ha, han⟩ hq => ?_, fun rest hst ⟨a, ha, han⟩ hq hsteady => ?_⟩
    · rw [State.dropAndDecide_behind .cancelled hbehind] at hw hans ⊢
      refine ⟨hdrop.chan.trans ?_, hdrop.keepsChannels, (State.releases_one (t := s.dropJob c j .cancelled) rfl).settle, hdrop.taking hs,
        hans _ (hw.keepsAllBut hs (by simp) (by simp) (fun _ => rfl) (fun _ => ?_) (by simp))⟩
      · rw [Channel.withoutJob, dropFromQueue_eq_filter (hnum.queue c)]
        simp [bne, BEq.beq]
      · exact hdrop.drivenLevel hw rfl (hw.drivenLevel_of_job (by simp [Channel.withoutJob]) (by simp [Channel.withoutJob]) rfl)
    · have hw' := hw
      rw [State.dropAndDecide_head .cancelled hst ha han, hq, dropFromQueue, List.eraseP_cons_of_pos (by simp), State.decideHead_nil] at hw hans ⊢
      have hidle := hdrop.thenChan Channel.becomeIdle
      refine ⟨hidle.chan.trans (by simp [Channel.withoutJob, Channel.becomeIdle]), hidle.keepsChannels,
        (State.releases_one (t := (s.dropJob c j .cancelled).modChan c Channel.becomeIdle) rfl).settle, hidle.taking hs,
        hans _ (hw.keepsAllBut hs (by simp) (by simp) (fun _ => rfl) (fun _ => ?_) (by simp))⟩
      refine hidle.drivenLevel hw rfl (State.drivenLevel_of_resting hw.own.config ?_ (.inr (.inl hst)))
      rw [hidle.own]
      exact .inl rfl
    · obtain ⟨h1, h2, h3, h4⟩ := State.dropAndDecide_takesHead .cancelled hs hst ha han hq hsteady
      exact ⟨h1.withLink _, h2, h3, hans _ (h4.mono (by simp))⟩
  · exact refused_of_exec hs hi trivial hx ht ((ownerCancel_absent hc hn hj).trans (if_pos (by rw [ha]; exact congrArg some hjn)))
  · refine refused_of_exec hs hi trivial hx ht ((ownerCancel_absent hc hn hj).trans (if_neg fun e => ?_))
    obtain ⟨a, ha', he⟩ := Option.map_eq_some_iff.1 e
    exact ha a ha' he

end Sys2Proof.Machine
end

section
/-! PROOFS. The masks of the replies (R167), GO, and the samples of the sense lines: their edges, their reports and the heads that they start
(R33, R34, R112 to R116). -/

namespace Sys2Proof.Machine

variable {s t u : State} {c : Chan} {mask : Byte}

/-! ### Masks (R167) -/

theorem getLsbD_channelBit : ∀ c d : Chan, (0x01#8 <<< c.val).getLsbD d.val = decide (c = d) := by
  decide

theorem getLsbD_maskOf (p : Chan → Bool) (c : Chan) : (maskOf p).getLsbD c.val = p c := by
  have fold : ∀ (cs : List Chan) (m : Byte), (cs.foldl (fun m c => if p c then m ||| (0x01#8 <<< c.val) else m) m).getLsbD c.val
      = (m.getLsbD c.val || cs.any fun d => p d && decide (d = c)) := by
    intro cs
    induction cs with
    | nil => simp
    | cons d cs ih =>
      intro m
      rw [List.foldl_cons, ih, List.any_cons]
      cases hp : p d
      · simp
      · rw [if_pos rfl, BitVec.getLsbD_or, getLsbD_channelBit, Bool.or_assoc, Bool.true_and]
  rw [maskOf, fold]
  simp only [BitVec.getLsbD_zero, Bool.false_or]
  rw [Bool.eq_iff_iff, List.any_eq_true]
  simp

/-- A mask is the mask of the channels that it names. -/
theorem maskOf_eq {p : Chan → Bool} (h : ∀ c : Chan, p c = mask.getLsbD c.val) : maskOf p = mask := by
  refine BitVec.eq_of_getLsbD_eq fun i hi => ?_
  exact (getLsbD_maskOf p ⟨i, hi⟩).trans (h ⟨i, hi⟩)

theorem mem_maskChans : c ∈ maskChans mask ↔ mask.getLsbD c.val = true := by
  simp [maskChans]

/-- The part of a mask of one channel that has a property. -/
theorem maskOf_single {p : Chan → Bool} (h : maskChans mask = [c]) (hp : p c = true) :
    maskOf (fun d => mask.getLsbD d.val && p d) = mask := by
  refine maskOf_eq fun d => ?_
  cases hd : mask.getLsbD d.val
  · rfl
  · have : d = c := by simpa [h] using mem_maskChans.2 hd
    rw [this, hp]
    rfl

theorem maskOf_none {p : Chan → Bool} (h : ∀ c : Chan, mask.getLsbD c.val = true → p c = false) :
    maskOf (fun d => mask.getLsbD d.val && p d) = 0x00#8 := by
  refine maskOf_eq fun d => ?_
  cases hd : mask.getLsbD d.val
  · simp
  · simp [h d hd]

theorem ne_zero_of_maskChans (h : maskChans mask = [c]) : mask ≠ 0x00#8 := by
  rintro rfl
  have : c ∈ maskChans 0x00#8 := by simp [h]
  simp [mem_maskChans] at this

/-! ### The armed head starts (R31, R33, R34) -/

section Start

variable {j : Job} {rest : List Job} {h : Header} {x : Step} {steps : List Step} {n : Nat}
  (hq : (s.chan c).queue = j :: rest) (he : s.entry j.pattern = .ready h (x :: steps) n) (hk : ∀ k, x.kind ≠ .carrier k)

include hq he hk

theorem State.startHead_eq : s.startHead c
    = ((s.startJob c j rest).modChan c (Channel.enterSteady (x.duration.toNat * h.timeUnit.clocks))).markEntry c
        (j.starting h.repeats) x := by
  rw [State.startHead, hq]
  simp only [State.enterStep_startJob rest he hk]

theorem State.alone_startHead : s.Alone (s.startHead c) c
    (Channel.started j rest h.repeats (x.duration.toNat * h.timeUnit.clocks) (s.chan c))
    (startReports s c j ++ firstMark s c j x) := by
  rw [State.startHead_eq hq he hk]
  exact State.alone_start rest he

theorem State.carb_startHead : (s.startHead c).carb = s.carb := by
  rw [State.startHead_eq hq he hk]
  simp [State.carb_startJob]

theorem State.ptab_startHead : (s.startHead c).ptab = s.ptab := by
  rw [State.startHead_eq hq he hk]
  simp

end Start

/-! ### GO (R34) -/

theorem ownerGo_eq (h : mask ≠ 0x00#8) (s : State) : ownerGo mask s
    = answerOk (s.forEach ((maskChans mask).filter fun c => (s.chan c).goReady) fun c t => t.startHead c)
      [maskOf fun c => mask.getLsbD c.val && (s.chan c).goReady] :=
  if_neg h

theorem Channel.goReady_iff {ch : Channel} : ch.goReady = true ↔ ch.state = .armed ∧ ch.queue.head?.map Job.start = some .go := by
  simp [Channel.goReady]

/-- Settles O28: the GO heads of the named ARMED channels start, and nothing else does. -/
theorem goStartsHead : Obligations.GoStartsHead := by
  intro s v mask hs hx hm
  have hi : Instr.request (.go v mask) = some (v, .go mask) := rfl
  obtain ⟨t, ht⟩ := exec_next hi trivial hx
  have hown := ownerGo_eq hm s
  refine ⟨t, ht, fun hnone => ?_, fun c j rest h x steps n hmask hst ha hq hgo he hk => ?_⟩
  · have hready : ∀ c : Chan, mask.getLsbD c.val = true → (s.chan c).goReady = false := fun c hc => by
      rw [← Bool.not_eq_true, Channel.goReady_iff]
      exact not_and_or.2 (hnone c hc)
    rw [maskOf_none hready, List.filter_eq_nil_iff.2 fun c hc => by simp [hready c (mem_maskChans.1 hc)], State.forEach_nil] at hown
    exact answered_unchanged hs hi trivial hx ht hown
  · have hready : (s.chan c).goReady = true := Channel.goReady_iff.2 ⟨hst, by simp [hq, hgo]⟩
    have hfilter : [c].filter (fun c => (s.chan c).goReady) = [c] := by simp [hready]
    rw [maskOf_single hmask hready, hmask, hfilter, State.forEach_singleton] at hown
    have hw := works_startHead c s
    have halone := State.alone_startHead hq he hk
    obtain ⟨rfl, hans⟩ := answered_of_exec hi trivial hx ht hown hw.link
    refine ⟨halone.chan, halone.keepsChannels, (halone.taking hs).trans ?_, hans _ (hw.keepsAllBut hs (by simp)
      (fun _ => State.ptab_startHead hq he hk) (fun _ => State.carb_startHead hq he hk) (by simp) (by simp))⟩
    rw [startReports, firstMark, hgo]
    rfl

/-! ### What RPT takes at the end of an event (R128) -/

/-- RPT takes each report once, and those of one producer in the order in which they were made. -/
theorem State.settle_rpt_merges (u : State) : ∃ ys : List (Producer × Report), u.settle.rpt = u.rpt.taking (ys.map Prod.snd) ∧
    ys.Perm u.outbox ∧ ∀ q, ys.filter (fun y => y.1 == q) = u.outbox.filter fun y => y.1 == q := by
  obtain ⟨ys, e, hp, hf⟩ := u.takenReports_keeps_order
  refine ⟨ys, ?_, hp, hf⟩
  rw [← e]
  rfl

theorem byteOf_succ (n : Nat) : byteOf (n + 1) = byteOf n + 1#8 := by
  simp [byteOf, BitVec.ofNat_add]

/-- Each report consumes a sequence number (R125). -/
theorem ReportUnit.taking_nextSequence (u : ReportUnit) (rs : List Report) :
    (u.taking rs).nextSequence = u.nextSequence + byteOf rs.length := by
  change (rs.foldl ReportUnit.take u).nextSequence = _
  induction rs generalizing u with
  | nil => simp [byteOf]
  | cons r rs ih =>
    rw [List.foldl_cons, ih, ReportUnit.take_nextSequence, List.length_cons, byteOf_succ, BitVec.add_assoc, BitVec.add_comm 1#8]

/-! ### A sample of the lines (R112, R113, R115, R116) -/

/-- The sense unit after a sample, its lines' records following. -/
def State.sampled (s : State) (levels : BitVec 8) : State :=
  { s with sense := ⟨Vector.ofFn fun l => (s.senseLine l).sample (levels.getLsbD l.val), 0⟩ }

@[simp] theorem State.senseLine_sampled (s : State) (levels : BitVec 8) (l : Line) :
    (s.sampled levels).senseLine l = (s.senseLine l).sample (levels.getLsbD l.val) := by
  simp [State.sampled, State.senseLine]

@[simp] theorem SenseLine.sample_selection (x : SenseLine) (level : Bool) : (x.sample level).selection = x.selection := by
  unfold SenseLine.sample
  repeat' split
  all_goals rfl

/-- The SENSE report of an edge of a line (R116). -/
def senseReport (s : State) (l : Line) (up : Bool) : Report :=
  ⟨.sense, s.rpt.partTime, some l, 0#16, if up then 0x01#8 else 0x02#8, if up then 0x01#8 else 0x00#8⟩

/-- The edges are reported where their lines' selections include them. -/
theorem State.foldl_reportEdge (s : State) (edges : List (Line × Bool)) : edges.foldl State.reportEdge s
    = { s with outbox := s.outbox
          ++ (edges.filter fun e => (s.senseLine e.1).selection.includes e.2).map fun e => (.line e.1, senseReport s e.1 e.2) } := by
  induction edges generalizing s with
  | nil => simp
  | cons e edges ih =>
    rw [List.foldl_cons, ih]
    by_cases h : (s.senseLine e.1).selection.includes e.2 = true
    · have e1 : s.reportEdge e = { s with outbox := s.outbox ++ [(.line e.1, senseReport s e.1 e.2)] } := if_pos h
      rw [e1, List.filter_cons_of_pos (by exact h), List.map_cons]
      simp only [List.append_assoc, List.singleton_append]
      rfl
    · have e1 : s.reportEdge e = s := if_neg h
      rw [e1, List.filter_cons_of_neg (by exact h)]

/-- The lines whose edges a sample reports. -/
def State.reportedLines (s : State) (levels : BitVec 8) : List Line :=
  (List.finRange 8).filter fun l => (s.senseLine l).accepts (levels.getLsbD l.val)
    && (s.senseLine l).selection.includes (levels.getLsbD l.val)

/-- What a sample comes to before the heads start. -/
theorem State.report_edges (s : State) (levels : BitVec 8) : (s.edges levels).foldl State.reportEdge (s.sampled levels)
    = { s.sampled levels with outbox := s.outbox
          ++ (s.reportedLines levels).map fun l => (.line l, senseReport s l (levels.getLsbD l.val)) } := by
  rw [State.foldl_reportEdge]
  congr 2
  unfold State.edges State.reportedLines
  simp only [State.senseLine_sampled, SenseLine.sample_selection]
  induction List.finRange 8 with
  | nil => rfl
  | cons l ls ih =>
    by_cases ha : (s.senseLine l).accepts (levels.getLsbD l.val) = true
    · simp only [List.filterMap_cons, ha, if_true]
      by_cases hi : (s.senseLine l).selection.includes (levels.getLsbD l.val) = true
      · rw [List.filter_cons_of_pos (by exact hi), List.filter_cons_of_pos (by rw [ha, hi]; rfl), List.map_cons, List.map_cons, ih]
        rfl
      · rw [List.filter_cons_of_neg (by exact hi), List.filter_cons_of_neg (by rw [Bool.eq_false_iff.2 hi, Bool.and_false]; exact Bool.false_ne_true), ih]
    · rw [List.filter_cons_of_neg (by rw [Bool.eq_false_iff.2 ha]; exact Bool.false_ne_true), ← ih]
      simp only [List.filterMap_cons, if_neg ha]

theorem chansWith_eq_nil {p : Chan → Bool} (h : ∀ c, p c = false) : chansWith p = [] :=
  List.filter_eq_nil_iff.2 fun c _ => by simp [h c]

theorem chansWith_eq_singleton {p : Chan → Bool} (h : ∀ d, p d = true ↔ d = c) : chansWith p = [c] := by
  have hn : (chansWith p).Nodup := List.Nodup.filter p (List.nodup_finRange 8)
  exact List.perm_singleton.1 ((List.perm_ext_iff_of_nodup hn (List.nodup_singleton c)).2 fun d => by
    rw [chansWith, List.mem_filter, h, List.mem_singleton]
    simp)

/-- With no head to start, a sample reads the lines and reports their edges. -/
theorem State.sampleLines_of_none {levels : BitVec 8} (h : ∀ c, (s.chan c).startsOn (s.edges levels) = false) :
    s.sampleLines levels = { s.sampled levels with
      outbox := s.outbox ++ (s.reportedLines levels).map fun l => (.line l, senseReport s l (levels.getLsbD l.val)) } := by
  have e := s.report_edges levels
  change ((s.edges levels).foldl State.reportEdge (s.sampled levels)).forEach
    (chansWith fun c => (s.chan c).startsOn (s.edges levels)) _ = _
  rw [e, chansWith_eq_nil h, State.forEach_nil]

theorem Channel.startsOn_of_not_armed {ch : Channel} (h : ch.state ≠ .armed) (edges : List (Line × Bool)) :
    ch.startsOn edges = false := by
  simp [Channel.startsOn, h]

theorem SenseUnit.sampleDue_iff {x : SenseUnit} : x.sampleDue = true ↔ 800 ≤ x.grid :=
  decide_eq_true_iff

/-- Settles O38: each line's record follows the sample, and the selected edges are reported. -/
theorem senseSample : Obligations.SenseSample := by
  intro s levels hs
  obtain ⟨t, ht, hearly, hdue⟩ := runEvent_next s.sense.sampleDue (fun u => u.sampleLines levels) s
  refine ⟨t, ht, fun h => hearly (by rw [← Bool.not_eq_true, SenseUnit.sampleDue_iff]; omega), fun h => ?_⟩
  obtain rfl := hdue (SenseUnit.sampleDue_iff.2 h)
  have hsense : (s.sampleLines levels).settle.sense = (s.sampled levels).sense := by
    rw [State.settle_sense]
    exact (effects_sampleLines s levels).sense
  refine ⟨congrArg SenseUnit.grid hsense, fun l => ?_, fun hidle => ?_⟩
  · intro x level
    have hl : (s.sampleLines levels).settle.senseLine l = x.sample level := by
      rw [← State.senseLine_sampled]
      simp only [State.senseLine, hsense]
    rw [hl, SenseLine.sample, SenseLine.accepts]
    refine ⟨fun he => if_pos he, fun hne hp => ?_, fun hne hp => ?_⟩
    · rw [if_neg hne, if_neg (by simp; omega)]
    · rw [if_neg hne, if_pos (by simp [hne]; omega)]
  · have e := State.sampleLines_of_none (levels := levels) fun c => Channel.startsOn_of_not_armed (hidle c) (s.edges levels)
    rw [e, hs.outbox, List.nil_append]
    set u : State := { s.sampled levels with
      outbox := (s.reportedLines levels).map fun l => (.line l, senseReport s l (levels.getLsbD l.val)) } with hu
    refine ⟨hs.keepsAllBut rfl rfl (fun b hb _ _ _ => by cases b <;> first | rfl | simp at hb)
      (fun _ c => State.drivenLevel_eq rfl (fun _ _ => rfl) fun _ _ _ _ => rfl) (fun hb => by simp at hb) (fun hb => by simp at hb),
      State.settled_settle _, ?_⟩
    intro reported
    let report : Line → Report := fun l => senseReport s l (levels.getLsbD l.val)
    have hreported : reported = s.reportedLines levels := by
      refine List.filter_congr fun l _ => ?_
      congr 1
      cases (s.senseLine l).selection <;> rfl
    have hmap : u.outbox.map Prod.snd = reported.map report := by
      rw [hreported, hu, List.map_map]
      rfl
    obtain ⟨ys, hys, hperm, -⟩ := u.settle_rpt_merges
    have hp := (hperm.map Prod.snd).trans (.of_eq hmap)
    refine ⟨?_, fun l hl => ?_, fun hnil => ?_, ys.map Prod.snd, hp, hys⟩
    · rw [hys, ReportUnit.taking_nextSequence, hp.length_eq, List.length_map]
      rfl
    · rw [hys, List.perm_singleton.1 (hp.trans (.of_eq (by rw [hl]; rfl)))]
      rfl
    · rw [hys, List.perm_nil.1 (hp.trans (.of_eq (by rw [hnil]; rfl)))]
      exact hs.taking_nil

/-! ### Edges that start a head (R33, R115) -/

section Edge

variable {levels : BitVec 8} {l : Line} {sel : EdgeSel} {j : Job} {rest : List Job}

/-- With filter time 0 a differing level is an edge at once (R113). -/
theorem State.mem_edges (hne : levels.getLsbD l.val ≠ (s.senseLine l).filtered) (hf : (s.senseLine l).filter = 0x00#8) :
    (l, levels.getLsbD l.val) ∈ s.edges levels := by
  have ha : (s.senseLine l).accepts (levels.getLsbD l.val) = true := by
    simp only [SenseLine.accepts, hf, Bool.and_eq_true, decide_eq_true_eq]
    exact ⟨hne, Nat.zero_le _⟩
  exact List.mem_filterMap.2 ⟨l, List.mem_finRange l, if_pos ha⟩

theorem EdgeSel.admits_of {up : Bool} (h : sel = .either ∨ sel = (if up then .rise else .fall)) : sel.admits up = true := by
  rcases h with rfl | rfl
  · rfl
  · cases up <;> rfl

theorem Channel.startsOn_sense {ch : Channel} {edges : List (Line × Bool)} {up : Bool} (hst : ch.state = .armed)
    (hq : ch.queue = j :: rest) (hj : j.start = .sense l sel) (he : (l, up) ∈ edges) (ha : sel.admits up = true) :
    ch.startsOn edges = ch.armed.any fun h => !h.fresh := by
  have hany : (edges.any fun e => decide (e.1 = l) && sel.admits e.2) = true :=
    List.any_eq_true.2 ⟨(l, up), he, by simp [ha]⟩
  simp [Channel.startsOn, hst, hq, hj, hany]

/-- A sample of lines whose edges no selection includes makes no SENSE report. -/
theorem State.report_edges_of_none (h : ∀ l, (s.senseLine l).selection = .none) :
    (s.edges levels).foldl State.reportEdge (s.sampled levels) = s.sampled levels := by
  have hr : s.reportedLines levels = [] := List.filter_eq_nil_iff.2 fun l _ => by simp [h l, Selection.includes]
  rw [State.report_edges, hr, List.map_nil, List.append_nil]
  rfl

theorem State.Settled.sampled (hs : s.Settled) (levels : BitVec 8) : (s.sampled levels).Settled :=
  ⟨hs.outbox, fun c => (hs.outs c).trans (State.drivenLevel_eq (s := s) rfl (fun _ _ => rfl) fun _ _ _ _ => rfl).symm, hs.attention⟩

theorem State.keepsAllBut_sampled (s : State) (levels : BitVec 8) : s.KeepsAllBut (s.sampled levels) [.sense] := by
  refine ⟨fun b hb => ?_, rfl, rfl⟩
  cases b <;> first | rfl | simp at hb

theorem State.sampleLines_eq (h : ∀ l, (s.senseLine l).selection = .none) : s.sampleLines levels
    = (s.sampled levels).forEach (chansWith fun c => (s.chan c).startsOn (s.edges levels)) fun c u => u.startHead c := by
  have e := State.report_edges_of_none (levels := levels) h
  change ((s.edges levels).foldl State.reportEdge (s.sampled levels)).forEach
    (chansWith fun c => (s.chan c).startsOn (s.edges levels)) _ = _
  rw [e]

end Edge

/-- Settles O39: the edge starts the head of the one ARMED channel, unless that head is fresh. -/
theorem edgeStartsHead : Obligations.EdgeStartsHead := by
  refine ⟨fun s levels c l sel j rest w h x steps n hs hgrid hsel harmed hst ha hq hw hj hne hf hadm he hk => ?_,
    fun s levels c l sel j rest w hs hgrid hsel harmed hst hq hw hj hne hf hadm => ?_⟩
  all_goals
    have hdue : s.sense.sampleDue = true := SenseUnit.sampleDue_iff.2 hgrid
    have hstarts := Channel.startsOn_sense hst hq hj (State.mem_edges hne hf) (EdgeSel.admits_of hadm)
    rw [hw] at hstarts
    have hothers : ∀ d, d ≠ c → (s.chan d).startsOn (s.edges levels) = false := fun d hd =>
      Channel.startsOn_of_not_armed (harmed d hd) _
    have hs' := hs.sampled levels
    obtain ⟨t, ht, -, hat⟩ := runEvent_next s.sense.sampleDue (fun u => u.sampleLines levels) s
    obtain rfl := hat hdue
    refine ⟨_, ht, ?_⟩
    clear ht hat
    rw [State.sampleLines_eq hsel]
  · rw [chansWith_eq_singleton (c := c) fun d => ⟨fun hd => by_contra fun hne => by simp [hothers d hne] at hd, fun hd => by
      rw [hd, hstarts]; rfl⟩, State.forEach_singleton]
    have halone := State.alone_startHead (s := s.sampled levels) hq he hk
    have hworks := works_startHead c (s.sampled levels)
    refine ⟨halone.chan, halone.keepsChannels, (halone.taking hs').trans ?_, ?_, State.settled_settle _⟩
    · rw [startReports, firstMark, hj]
      rfl
    · exact ((s.keepsAllBut_sampled levels).mono (by simp)).trans (hworks.keepsAllBut hs' (by simp)
        (fun _ => State.ptab_startHead (s := s.sampled levels) hq he hk) (fun _ => State.carb_startHead (s := s.sampled levels) hq he hk)
        (by simp) (by simp))
  · rw [chansWith_eq_nil fun d => by
      by_cases hd : d = c
      · rw [hd, hstarts]; rfl
      · exact hothers d hd, State.forEach_nil, State.settle_of_settled _ hs']
    refine ⟨?_, s.keepsAllBut_sampled levels, hs'⟩
    rw [State.senseLine_sampled, SenseLine.sample, if_neg hne, if_pos]
    simp only [SenseLine.accepts, hf, Bool.and_eq_true, decide_eq_true_eq]
    exact ⟨hne, Nat.zero_le _⟩

end Sys2Proof.Machine
end

section
/-! PROOFS. The end of a step (R51 to R54, R60): what follows it in each case, the entry of the next steady step, and the end of the job. -/

namespace Sys2Proof.Machine

variable {s t u : State} {c : Chan} {a b : Active} {h : Header} {steps : List Step} {n : Nat}

/-! ### What follows a step (R52) -/

section Next

variable (he : s.entry a.job.pattern = .ready h steps n)

include he

theorem State.nextStep_within (hs : ∀ p, a.stop = some p → p.boundary = .passEnd) (hl : a.stepIndex + 1 < h.count) :
    s.nextStep a = .goesOn { a with stepIndex := a.stepIndex + 1 } := by
  unfold State.nextStep
  rw [he]
  dsimp only
  cases hp : a.stop with
  | none => exact if_pos hl
  | some p => exact if_pos ⟨hs p hp, hl⟩

theorem State.nextStep_stopped {p : PendingStop} (hs : a.stop = some p) (hp : p.boundary ≠ .passEnd ∨ h.count ≤ a.stepIndex + 1) :
    s.nextStep a = .ends p.outcome.outcome := by
  unfold State.nextStep
  rw [he, hs]
  refine if_neg fun ⟨h1, h2⟩ => ?_
  rcases hp with hp | hp
  · exact hp h1
  · omega

theorem State.nextStep_pass (hs : a.stop = none) (hl : h.count ≤ a.stepIndex + 1) : s.nextStep a = s.passNext a h := by
  unfold State.nextStep
  rw [he, hs]
  exact if_neg (by omega)

/-- A completed pass that is not the last (R53). -/
theorem State.nextStep_wraps (hs : a.stop = none) (hl : h.count ≤ a.stepIndex + 1)
    (hlast : ¬(a.repeats ≠ 0x00#8 ∧ a.repeats.toNat ≤ (passesAfter a.passes).toNat)) :
    s.nextStep a = .goesOn { a with stepIndex := h.loopStart, passes := passesAfter a.passes } := by
  rw [State.nextStep_pass he hs hl, State.passNext, if_pos]
  by_contra hne
  rw [not_or, not_lt] at hne
  exact hlast hne

/-- The last pass has been completed (R54). -/
theorem State.nextStep_last (hs : a.stop = none) (hl : h.count ≤ a.stepIndex + 1)
    (hlast : a.repeats ≠ 0x00#8 ∧ a.repeats.toNat ≤ (passesAfter a.passes).toNat) : s.nextStep a = s.finalNext a h.final := by
  rw [State.nextStep_pass he hs hl, State.passNext, if_neg]
  rw [not_or, not_lt]
  exact hlast

end Next

theorem State.finalNext_chains {q : PatId} {h' : Header} {more : List Step} {m : Nat} (hq : s.entry q = .ready h' more m) :
    s.finalNext a (.chain q) = .goesOn (a.chained q h') := by
  rw [State.finalNext, hq]

theorem State.finalNext_missing {q : PatId} (hq : (s.entry q).isReady = false) : s.finalNext a (.chain q) = .ends .chainMissing := by
  rw [State.finalNext]
  cases he : s.entry q <;> simp_all [Entry.isReady]

/-! ### The entry of a steady step (R50, R59) -/

/-- An active job that has entered a steady step. -/
def Active.entered (cfg : LineConfig) (length : Nat) (a : Active) : Active :=
  { a with remaining := length, clock := .running, sampleDue := cfg.readback && decide (800 ≤ length) }

theorem State.alone_enterNext {x : Step} (ha : (s.chan c).active = some a) (he : s.entry a.job.pattern = .ready h steps n)
    (hx : steps[a.stepIndex]? = some x) (hk : ∀ k, x.kind ≠ .carrier k) :
    s.Alone (s.enterNext c) c { s.chan c with
        state := .playing, active := some (a.entered (s.chan c).config (x.duration.toNat * h.timeUnit.clocks)) } (markReports s c a x) ∧
      (s.enterNext c).carb = s.carb ∧ (s.enterNext c).ptab = s.ptab := by
  have hc : s.currentStep a = some x := by rw [State.currentStep, he]; exact hx
  have hl : s.stepLength a.job.pattern x = x.duration.toNat * h.timeUnit.clocks := by
    rw [State.stepLength, State.unitClocks, he]
  have e : s.enterNext c
      = (s.modChan c (Channel.enterSteady (x.duration.toNat * h.timeUnit.clocks))).markEntry c a x := by
    rw [State.enterNext, State.enterStep_steady ha hc hk, hl]
  rw [e]
  refine ⟨?_, by simp, by simp⟩
  have k := (State.Alone.modChan s c (Channel.enterSteady (x.duration.toNat * h.timeUnit.clocks))).trans
    (State.alone_markEntry _ c a x)
  rw [List.nil_append] at k
  have hch : (s.modChan c (Channel.enterSteady (x.duration.toNat * h.timeUnit.clocks))).chan c = { s.chan c with
      state := .playing, active := some (a.entered (s.chan c).config (x.duration.toNat * h.timeUnit.clocks)) } := by
    rw [State.chan_modChan, if_pos rfl, Channel.enterSteady, ha]
    rfl
  rw [hch] at k
  exact k

/-! ### The references of a job that goes on (R8, R54) -/

@[simp] theorem State.moveRef_self (s : State) (p : PatId) : s.moveRef p p = s :=
  if_pos rfl

theorem State.alone_moveRef (s : State) (c : Chan) (p q : PatId) : s.Alone (s.moveRef p q) c (s.chan c) [] := by
  unfold State.moveRef
  split
  exacts [.refl s c, .tables rfl rfl rfl]

theorem State.entry_moveRef {p q : PatId} (hne : q ≠ p) (i : PatId) : (s.moveRef p q).entry i
    = if i = q then (s.entry i).addRef else if i = p then (s.entry i).dropRef else s.entry i := by
  rw [State.moveRef, if_neg (Ne.symm hne), State.entry_addRef, State.entry_dropRef]
  by_cases h : i = q
  · subst h
    rw [if_pos rfl, if_pos rfl, if_neg hne]
  · rw [if_neg h, if_neg h]

theorem State.continues_of_unattached (hn : a.attach = none) (next : Active) : s.continues a next = false := by
  unfold State.continues
  rw [hn]
  split <;> rfl

/-- The end of a steady step that a steady step follows: the channel's record, its MARK report and the references. -/
theorem State.alone_stepEnd {next : Active} {x : Step} (ha : (s.chan c).active = some a) (hn : a.attach = none)
    (hnext : s.nextStep a = .goesOn next) (hnn : next.attach = none)
    (he : (s.moveRef a.job.pattern next.job.pattern).entry next.job.pattern = .ready h steps n)
    (hx : steps[next.stepIndex]? = some x) (hk : ∀ k, x.kind ≠ .carrier k) :
    s.Alone (s.stepEnd c) c { s.chan c with
        state := .playing, active := some (next.entered (s.chan c).config (x.duration.toNat * h.timeUnit.clocks)) }
        (markReports s c next x) ∧
      (s.stepEnd c).carb = s.carb ∧ (s.stepEnd c).ptab = (s.moveRef a.job.pattern next.job.pattern).ptab := by
  have hm := s.alone_moveRef c a.job.pattern next.job.pattern
  have e : s.stepEnd c = ((s.moveRef a.job.pattern next.job.pattern).modChan c (Channel.withActive next)).enterNext c := by
    unfold State.stepEnd
    simp only [ha, hnext, State.continues_of_unattached hn]
    rw [if_neg Bool.false_ne_true, State.detach_of_unattached]
    rw [State.chan_modChan, if_pos rfl]
    simpa [Channel.withActive, Channel.attachment] using hnn
  have hw := hm.thenChan (Channel.withActive next)
  obtain ⟨hen, hcarb, hptab⟩ := State.alone_enterNext (s := (s.moveRef a.job.pattern next.job.pattern).modChan c (Channel.withActive next))
    (c := c) (a := next) (by rw [hw.own]; rfl) he hx hk
  rw [e]
  refine ⟨?_, hcarb.trans (State.carb_moveRef s _ _), hptab⟩
  have k := hw.trans hen
  rw [hw.own, List.nil_append] at k
  have hr : markReports ((s.moveRef a.job.pattern next.job.pattern).modChan c (Channel.withActive next)) c next x
      = markReports s c next x := by
    rw [markReports, hw.rpt]
    rfl
  rw [hr] at k
  exact k

theorem Channel.stepExpired_iff {ch : Channel} (hst : ch.state = .playing) (ha : ch.active = some a) (hn : a.attach = none)
    (hc : a.clock = .running) : ch.stepExpired = true ↔ a.remaining = 0 := by
  simp [Channel.stepExpired, hst, ha, hn, hc]

/-- Settles O30: the three ways on, each to the entry of a steady step. -/
theorem stepEndGoesOn : Obligations.StepEndGoesOn := by
  intro s c a h steps n hs hst ha hn hc he
  obtain ⟨t, ht, hearly, hdue⟩ := runEvent_next (s.chan c).stepExpired (fun u => u.stepEnd c) s
  have hiff := Channel.stepExpired_iff hst ha hn hc
  refine ⟨t, ht, fun hr => hearly (by rw [← Bool.not_eq_true, hiff]; exact hr), ?_⟩
  intro pass last enters
  have on {next : Active} {h' : Header} {steps' : List Step} {m : Nat} {y : Step} (hr : a.remaining = 0)
      (hnext : s.nextStep a = .goesOn next) (hnn : next.attach = none) (hrun : next.clock = .running)
      (he' : (s.moveRef a.job.pattern next.job.pattern).entry next.job.pattern = .ready h' steps' m)
      (hy : steps'[next.stepIndex]? = some y) (hk : ∀ k, y.kind ≠ .carrier k) :
      enters next h'.timeUnit y ∧ t.ptab = (s.moveRef a.job.pattern next.job.pattern).ptab := by
    obtain rfl := hdue (hiff.2 hr)
    obtain ⟨halone, hcarb, hptab⟩ := State.alone_stepEnd ha hn hnext hnn he' hy hk
    refine ⟨⟨halone.chan.trans ?_, halone.keepsChannels, halone.taking hs, ?_, State.settled_settle _⟩, (State.settle_ptab _).trans hptab⟩
    · rw [Active.entered, ← hrun, ← hst]
    · exact (works_stepEnd c s).keepsAllBut hs (by simp) (by simp) (fun _ => hcarb) (by simp) (by simp)
  refine ⟨fun y hr hstop hl hy hk => ?_, fun y hr hstop hl hlast hy hk => ?_, fun q h' y more m hr hstop hl hlast hf hq hq' hk => ?_⟩
  · have k := on hr (State.nextStep_within he hstop hl) hn hc (by rw [State.moveRef_self]; exact he) hy hk
    rw [State.moveRef_self] at k
    exact k
  · have k := on hr (State.nextStep_wraps he hstop hl hlast) hn hc (by rw [State.moveRef_self]; exact he) hy hk
    rw [State.moveRef_self] at k
    exact k
  · have hnext : s.nextStep a = .goesOn (a.chained q h') := by
      rw [State.nextStep_last he hstop hl hlast, hf, State.finalNext_chains hq']
    have hmoved := State.entry_moveRef (s := s) hq
    have hmq : (s.moveRef a.job.pattern q).entry q = .ready h' (y :: more) (m + 1) := by rw [hmoved, if_pos rfl, hq']; rfl
    obtain ⟨h1, hptab⟩ := on hr hnext hn hc hmq rfl hk
    have hent : ∀ p, t.entry p = (s.moveRef a.job.pattern q).entry p := State.entry_congr hptab
    refine ⟨h1, (hent q).trans hmq, ?_, fun p h1 h2 => ?_, ?_⟩
    · rw [hent, hmoved, if_neg (Ne.symm hq), if_pos rfl, he]
      rfl
    · rw [hent, hmoved, if_neg h1, if_neg h2]
    · rw [hptab]
      exact (works_moveRef c s a.job.pattern q).load

/-! ### The end of the job (R60, R61) -/

theorem JobOutcome.byte_eq_completed {o : JobOutcome} : o.byte = 0x01#8 ↔ o = .completed := by
  cases o with
  | lineFault e f => cases e <;> cases f <;> decide
  | _ => decide

/-- The ENDED report by the byte that tells the outcome. -/
theorem endReports_eq (s : State) (c : Chan) (a : Active) (o : JobOutcome) : endReports s c a o
    = if o.byte ≠ 0x01#8 ∨ a.job.flags.reportEnd = true then
        [⟨.ended, s.rpt.partTime, some c, a.job.number, byteOf a.job.pattern.val, o.byte⟩] else [] := by
  unfold endReports endReported
  simp only [ne_eq, JobOutcome.byte_eq_completed, Bool.or_eq_true, decide_eq_true_eq, or_comm]

/-- A job without an attachment ends on a channel that is not HELD, and no NOW job with a carrier step 0 is queued. -/
theorem State.finishJob_takesHead (hs : s.Settled) (o : JobOutcome) (ha : (s.chan c).active = some a) (hn : a.attach = none)
    (hst : (s.chan c).state ≠ .held) (hq : s.SteadyHead (s.chan c).queue) :
    s.TakesHead (s.finishJob c o).settle c { s.chan c with active := none, holdRequest := false, waitTimer := none } (s.chan c).queue
        (endReports s c a o) ∧
      s.KeepsChannelsBut (s.finishJob c o).settle c ∧
      s.Releases (s.finishJob c o).settle (fun q => if q = a.job.pattern then 1 else 0) ∧
      (s.finishJob c o).carb = { s.carb with waitList := s.carb.waitList.filter fun w => w.chan ≠ c } := by
  have hend := State.alone_endJob_unattached o ha hn
  have hw := works_endJob c s o
  obtain ⟨ch, made, halone, hcarb, hptab⟩ := State.alone_decideHead c (hq.congr hw.entries)
  rw [State.finishJob_of_not_held o ha hst]
  exact ⟨hend.takesHead hs hw.entries ⟨(s.chan c).state, (s.chan c).queue, rfl⟩, (hend.trans halone).keepsChannels,
    (State.releases_one (State.ptab_endJob o ha)).congr ((State.settle_ptab _).trans hptab) fun _ => rfl,
    hcarb.trans (State.endJob_of_unattached o ha hn).1⟩

theorem State.filter_waitList_of_not_waiting (hw : s.WaitersOk) (hst : (s.chan c).state ≠ .carrierWait) :
    s.carb.waitList.filter (fun w => w.chan ≠ c) = s.carb.waitList :=
  List.filter_eq_self.2 fun w hm => by
    simpa using fun e : w.chan = c => hst (e ▸ hw.waiting w hm)

/-- Settles O31: each of the outcomes, and then the head decision. -/
theorem stepEndEndsJob : Obligations.StepEndEndsJob := by
  intro s c a h steps n o hs hwait hst ha hn hc hr hq he pass last hends
  obtain ⟨t, ht, -, hdue⟩ := runEvent_next (s.chan c).stepExpired (fun u => u.stepEnd c) s
  obtain rfl := hdue ((Channel.stepExpired_iff hst ha hn hc).2 hr)
  obtain ⟨x, hx, hnext⟩ : ∃ x : JobOutcome, o = x.byte ∧ s.nextStep a = .ends x := by
    rcases hends with ⟨p, hp, hb, rfl⟩ | ⟨hstop, hlast, hf, rfl⟩ | ⟨hstop, hlast, rfl, q, hf, hq⟩
    · exact ⟨_, by cases p.outcome <;> rfl, State.nextStep_stopped he hp hb⟩
    · exact ⟨.completed, rfl, by rw [State.nextStep_last he hstop hlast.1 hlast.2, hf]; rfl⟩
    · exact ⟨.chainMissing, rfl, by rw [State.nextStep_last he hstop hlast.1 hlast.2, hf, State.finalNext_missing hq]⟩
  subst hx
  have e : s.stepEnd c = s.finishJob c x := by rw [State.stepEnd, ha]; simp only [hnext]
  have hw := works_finishJob c s x
  obtain ⟨h1, h2, h3, h4⟩ := State.finishJob_takesHead hs x ha hn (by simp [hst]) hq
  rw [endReports_eq] at h1
  refine ⟨_, ht, ?_⟩
  rw [e]
  refine ⟨h1, h2, h3, hw.keepsAllBut hs (by simp) (by simp) (fun _ => ?_) (by simp) (by simp), State.settled_settle _⟩
  rw [h4, State.filter_waitList_of_not_waiting hwait (by simp [hst])]

end Sys2Proof.Machine
end

section
/-! PROOFS. The channels, the wait list, the generators' users, the lease and the reference counts together (R8, R22, R79, R84, R142, R144),
in a form that says where they may be left open within an event (`State.Sound`), and the operations of CARB. -/

namespace Sys2Proof.Machine

variable {s t : State} {c d : Chan} {N : Prop} {X : Set Chan} {G G' : Set GenId}

/-- A channel is attached to a generator. -/
def Channel.At (ch : Channel) (g : GenId) : Prop :=
  ch.attachment.map Attachment.gen = some g

/-- A channel holds what its state says, and a hold context exactly in HELD (R22). -/
def Channel.Whole (ch : Channel) : Prop :=
  ch.Ok ∧ (ch.hold.isSome ↔ ch.state = .held)

/-- What the lease says of a channel's state: SAFE only while EXPIRED, and a flagged channel then rests (R142, R144). -/
def LeaseTimer.Allows (l : LeaseTimer) (ch : Channel) : Prop :=
  (ch.state = .safe → l.state = .expired) ∧
    (l.state = .expired → ch.config.safeOnLease = true → ch.state = .off ∨ ch.state = .safe ∨ ch.state = .fault)

/-- The lease leaves a channel free to be in any state but SAFE. -/
def State.Free (s : State) (c : Chan) : Prop :=
  s.lease.state = .expired → (s.chan c).config.safeOnLease = false

/-- What every event keeps together of the channels, the wait list, the users, the lease and the reference counts. Within an event the
channels of `X` may be between two states, none of them on the wait list, and a RUNNING generator of `G` may have lost its last user. What
speaks of the users is claimed under `N` alone, so that one induction serves the statement with and without it. -/
structure State.Sound (N : Prop) (X : Set Chan) (G : Set GenId) (s : State) : Prop where
  whole : ∀ c, c ∉ X → (s.chan c).Whole
  lease : ∀ c, c ∉ X → s.lease.Allows (s.chan c)
  waiting : ∀ w ∈ s.carb.waitList, w.chan ∉ X ∧ (s.chan w.chan).state = .carrierWait
  once : (s.carb.waitList.map Waiter.chan).Nodup
  refs : s.RefsOk
  idle : N → ∀ g, (s.gen g).code ≠ 0x01#8 → ∀ c, ¬(s.chan c).At g
  busy : N → ∀ g, g ∉ G → (s.gen g).code = 0x01#8 → ∃ c, (s.chan c).At g
  places : N → ∀ c, c ∉ X → (s.chan c).state = .carrierWait → ∃ w ∈ s.carb.waitList, w.chan = c

/-- Outside an event the predicate is the four invariants, with the generators' users under `N`. -/
theorem State.sound_iff : s.Sound N ∅ ∅ ↔ s.ChannelsOk ∧ s.WaitersOk ∧ s.LeaseOk ∧ s.RefsOk ∧ (N → s.UsersOk) := by
  constructor
  · intro h
    refine ⟨fun c => h.whole c id, ⟨fun w hw => (h.waiting w hw).2, h.once⟩,
      ⟨fun c => (h.lease c id).1, fun he c => (h.lease c id).2 he⟩, h.refs, fun n => ⟨fun g hg => ?_, fun g hg => ?_, fun c => h.places n c id⟩⟩
    · exact State.users_eq_nil.2 (h.idle n g hg)
    · obtain ⟨c, hc⟩ := h.busy n g id hg
      exact fun e => State.users_eq_nil.1 e c hc
  · rintro ⟨hc, hw, hl, hr, hu⟩
    refine ⟨fun c _ => hc c, fun c _ => ⟨hl.safe c, fun he => hl.flagged he c⟩, fun w m => ⟨id, hw.waiting w m⟩, hw.once, hr,
      fun n g hg => State.users_eq_nil.1 ((hu n).idle g hg), fun n g _ hg => ?_, fun n c _ => (hu n).places c⟩
    by_contra hne
    exact (hu n).busy g hg (State.users_eq_nil.2 fun d hd => hne ⟨d, hd⟩)

/-! ### Channels at rest and at work -/

theorem Channel.At.isSome {ch : Channel} {g : GenId} (h : ch.At g) : ch.attachment.isSome := by
  unfold Channel.At at h
  cases ha : ch.attachment <;> simp [ha] at h ⊢

theorem Channel.not_at {ch : Channel} (h : ch.attachment = none) (g : GenId) : ¬ch.At g := by
  simp [Channel.At, h]

theorem Channel.attachment_of_inactive {ch : Channel} (h : ch.active = none) : ch.attachment = none := by
  simp [Channel.attachment, h]

/-- An attachment is held while PLAYING alone (R86). -/
theorem Channel.Whole.attachment {ch : Channel} (h : ch.Whole) (hs : ch.state ≠ .playing) : ch.attachment = none := by
  have := h.1
  unfold Channel.Ok at this
  split at this
  all_goals first
    | exact Channel.attachment_of_inactive this.1
    | exact this.2
    | (next e => exact absurd e hs)

theorem Channel.Whole.hold {ch : Channel} (h : ch.Whole) (hs : ch.state ≠ .held) : ch.hold = none := by
  have := h.2.not.2 hs
  simpa using this

theorem Channel.whole_playing {ch : Channel} (hs : ch.state = .playing) (ha : ch.active.isSome) (hh : ch.hold = none) : ch.Whole := by
  simp [Channel.Whole, Channel.Ok, hs, ha, hh]

theorem Channel.whole_carrierWait {ch : Channel} (hs : ch.state = .carrierWait) (ha : ch.active.isSome) (hn : ch.attachment = none)
    (hh : ch.hold = none) : ch.Whole := by
  simp [Channel.Whole, Channel.Ok, hs, ha, hn, hh]

theorem Channel.whole_held {ch : Channel} {x : HeldFrom} {r : Option ResumePoint} (hs : ch.state = .held) (hh : ch.hold = some ⟨x, r⟩)
    (hr : r.isSome ↔ ch.active.isSome) (hn : ch.attachment = none) : ch.Whole := by
  simp [Channel.Whole, Channel.Ok, hs, hh, hr, hn]

theorem Channel.whole_resting {ch : Channel} (hs : ch.state = .off ∨ ch.state = .idle ∨ ch.state = .safe ∨ ch.state = .fault)
    (ha : ch.active = none) (hq : ch.queue = []) (hh : ch.hold = none) : ch.Whole := by
  rcases hs with hs | hs | hs | hs <;> simp [Channel.Whole, Channel.Ok, hs, ha, hq, hh]

/-- A channel in any state but SAFE is allowed where the lease leaves it free. -/
theorem State.Free.allows {u : State} (hf : s.Free c) (hl : u.lease.state = s.lease.state) (hc : (u.chan c).config = (s.chan c).config)
    (hs : (u.chan c).state ≠ .safe) : u.lease.Allows (u.chan c) :=
  ⟨fun e => absurd e hs, fun he hg => by rw [hc, hf (hl.symm.trans he)] at hg; cases hg⟩

theorem State.Free.congr (hf : s.Free c) (hl : t.lease.state = s.lease.state) (hc : (t.chan c).config = (s.chan c).config) :
    t.Free c := fun he => hc ▸ hf (hl.symm.trans he)

theorem State.Free.effects (hf : s.Free c) (e : Effects s t) : t.Free c :=
  hf.congr (by rw [e.lease]) (e.channels c).config

theorem State.Free.works (hf : s.Free c) (w : Works d s t) : t.Free c :=
  hf.effects (.of_works w)

/-- What a channel that changes within an event keeps, so that the event need not open it. -/
structure Channel.Alike (ch ch' : Channel) : Prop where
  state : ch'.state = ch.state
  hold : ch'.hold = ch.hold
  config : ch'.config = ch.config
  ok : ch.Ok → ch'.Ok

theorem Channel.Alike.refl (ch : Channel) : ch.Alike ch := ⟨rfl, rfl, rfl, id⟩

theorem Channel.Alike.of_eq {ch ch' : Channel} (h : ch' = ch) : ch.Alike ch' := h ▸ .refl ch

theorem Channel.Alike.whole {ch ch' : Channel} (h : ch.Alike ch') (w : ch.Whole) : ch'.Whole :=
  ⟨h.ok w.1, by rw [h.hold, h.state]; exact w.2⟩

theorem Channel.Alike.allows {ch ch' : Channel} (h : ch.Alike ch') {l l' : LeaseTimer} (hl : l'.state = .expired ↔ l.state = .expired)
    (a : l.Allows ch) : l'.Allows ch' := by
  unfold LeaseTimer.Allows
  rw [h.state, h.config, hl]
  exact a

/-- A change of a PLAYING or HELD channel's playing fields and queue, or of what no state speaks of. -/
theorem Channel.alike_of_fields {ch ch' : Channel} (hs : ch'.state = ch.state) (hh : ch'.hold = ch.hold) (hc : ch'.config = ch.config)
    (ha : ch'.active.isSome = ch.active.isSome) (hn : ch.attachment = none → ch'.attachment = none)
    (hq : ch.state = .playing ∨ ch.state = .carrierWait ∨ ch.state = .held ∨ (ch'.queue = ch.queue ∧
      ch'.armed.map ArmedHead.number = ch.armed.map ArmedHead.number)) : ch.Alike ch' := by
  have hnone : ch.active = none → ch'.active = none := fun e => by simpa [e] using ha
  refine ⟨hs, hh, hc, fun h => ?_⟩
  unfold Channel.Ok at h ⊢
  rw [hs]
  split at h
  case h_6 => rw [ha]; exact h
  case h_7 => exact ⟨ha ▸ h.1, hn h.2⟩
  case h_8 => rw [hh, ha]; exact ⟨h.1, hn h.2⟩
  all_goals
    next e =>
    obtain ⟨q, m⟩ : ch'.queue = ch.queue ∧ ch'.armed.map ArmedHead.number = ch.armed.map ArmedHead.number := by
      simpa [e] using hq
    rw [q]
    try rw [m]
    exact ⟨hnone h.1, h.2⟩

/-! ### Changes that leave CARB alone -/

namespace State.Sound

/-- The predicate reads of a state what the hypotheses name; attachments may be given up, the generators that lose a user by it going
to those that may have none. -/
theorem change (h : s.Sound N X G) (hc : ∀ c, c ∉ X → (s.chan c).Alike (t.chan c)) (hlease : t.lease.state = .expired ↔ s.lease.state = .expired)
    (hw : t.carb.waitList = s.carb.waitList) (hg : ∀ g, (t.gen g).code = (s.gen g).code) (hr : t.RefsOk)
    (hi : ∀ c g, (t.chan c).At g → (s.chan c).At g)
    (hb : ∀ g, g ∉ G' → g ∉ G ∧ ∀ c, (s.chan c).At g → ∃ d, (t.chan d).At g) : t.Sound N X G' where
  whole c hx := (hc c hx).whole (h.whole c hx)
  lease c hx := (hc c hx).allows hlease (h.lease c hx)
  waiting w m := by
    obtain ⟨hx, hs⟩ := h.waiting w (hw ▸ m)
    exact ⟨hx, by rw [(hc w.chan hx).state, hs]⟩
  once := hw ▸ h.once
  refs := hr
  idle n g e c a := h.idle n g (hg g ▸ e) c (hi c g a)
  busy n g m e := by
    obtain ⟨hm, hk⟩ := hb g m
    obtain ⟨c, a⟩ := h.busy n g hm (hg g ▸ e)
    exact hk c a
  places n c hx e := hw ▸ h.places n c hx ((hc c hx).state ▸ e)

/-- A change that keeps every attachment. -/
theorem keep (h : s.Sound N X G) (hc : ∀ c, c ∉ X → (s.chan c).Alike (t.chan c)) (hlease : t.lease.state = .expired ↔ s.lease.state = .expired)
    (hw : t.carb.waitList = s.carb.waitList) (hg : ∀ g, (t.gen g).code = (s.gen g).code) (hr : t.RefsOk)
    (ha : ∀ c, (t.chan c).attachment = (s.chan c).attachment) : t.Sound N X G :=
  h.change hc hlease hw hg hr (fun c g => by unfold Channel.At; rw [ha c]; exact id)
    fun g hm => ⟨hm, fun c a => ⟨c, by unfold Channel.At; rw [ha c]; exact a⟩⟩

/-- Fewer generators may be without a user where every RUNNING one has one, and more at will. -/
theorem withBusy (h : s.Sound N X G) (hb : N → ∀ g, g ∉ G' → (s.gen g).code = 0x01#8 → ∃ c, (s.chan c).At g) : s.Sound N X G' :=
  ⟨h.whole, h.lease, h.waiting, h.once, h.refs, h.idle, hb, h.places⟩

/-- Nothing changes that the predicate reads. -/
theorem congr (h : s.Sound N X G) (hc : ∀ c, t.chan c = s.chan c) (hcarb : t.carb = s.carb) (hp : ∀ p, (t.entry p).refs = (s.entry p).refs)
    (hl : t.lease.state = .expired ↔ s.lease.state = .expired) : t.Sound N X G :=
  h.keep (fun c _ => .of_eq (hc c)) hl (by rw [hcarb]) (fun g => by rw [State.gen_congr hcarb])
    (h.refs.congr (fun d => by rw [hc d]) hp) fun c => by rw [hc c]

/-- One channel changes alone; an open one may change to anything that keeps its attachment. -/
theorem own (h : s.Sound N X G) (ho : ∀ d, d ≠ c → t.chan d = s.chan d) (hcarb : t.carb = s.carb)
    (hl : t.lease = s.lease) (hr : t.RefsOk) (hc : c ∈ X ∨ (s.chan c).Alike (t.chan c))
    (ha : (t.chan c).attachment = (s.chan c).attachment) : t.Sound N X G := by
  refine h.keep (fun d hd => ?_) (by rw [hl]) (by rw [hcarb]) (fun g => by rw [State.gen_congr hcarb]) hr fun d => ?_
  · by_cases e : d = c
    · subst e
      exact hc.resolve_left hd
    · exact .of_eq (ho d e)
  · by_cases e : d = c
    exacts [e ▸ ha, by rw [ho d e]]

theorem absent (h : s.Sound N X G) (hx : c ∈ X ∨ (s.chan c).state ≠ .carrierWait) : ∀ w ∈ s.carb.waitList, w.chan ≠ c := by
  rintro w m rfl
  obtain ⟨hn, hs⟩ := h.waiting w m
  exact hx.elim hn fun hne => hne hs

/-- A channel without a place on the wait list may be opened. -/
theorem openUp (h : s.Sound N X G) (hw : ∀ w ∈ s.carb.waitList, w.chan ≠ c) : s.Sound N (insert c X) G where
  whole d hd := h.whole d fun m => hd (.inr m)
  lease d hd := h.lease d fun m => hd (.inr m)
  waiting w m := ⟨fun e => e.elim (hw w m) (h.waiting w m).1, (h.waiting w m).2⟩
  once := h.once
  refs := h.refs
  idle := h.idle
  busy := h.busy
  places n d hd := h.places n d fun m => hd (.inr m)

/-- An open channel is closed, in a state other than CARRIER_WAIT. -/
theorem close (h : s.Sound N X G) (hw : (s.chan c).Whole) (hl : s.lease.Allows (s.chan c)) (hs : (s.chan c).state ≠ .carrierWait) :
    s.Sound N (X \ {c}) G where
  whole d hd := by
    by_cases e : d = c
    exacts [e ▸ hw, h.whole d fun m => hd ⟨m, e⟩]
  lease d hd := by
    by_cases e : d = c
    exacts [e ▸ hl, h.lease d fun m => hd ⟨m, e⟩]
  waiting w m := ⟨fun e => (h.waiting w m).1 e.1, (h.waiting w m).2⟩
  once := h.once
  refs := h.refs
  idle := h.idle
  busy := h.busy
  places n d hd e := by
    by_cases ed : d = c
    exacts [absurd (ed ▸ e) hs, h.places n d (fun m => hd ⟨m, ed⟩) e]

/-- A closed channel that is at work is free of the lease. -/
theorem free (h : s.Sound N X G) (hx : c ∉ X) (ho : (s.chan c).state ≠ .off) (hs : (s.chan c).state ≠ .safe)
    (hf : (s.chan c).state ≠ .fault) : s.Free c := by
  intro he
  by_contra hg
  rcases (h.lease c hx).2 he (by simpa using hg) with e | e | e
  exacts [ho e, hs e, hf e]

/-- A closed channel with an active job is at work. -/
theorem free_of_active (h : s.Sound N X G) (hx : c ∉ X) (ha : (s.chan c).active.isSome) : s.Free c := by
  have hk := (h.whole c hx).1
  unfold Channel.Ok at hk
  refine h.free hx ?_ ?_ ?_ <;> intro e <;> rw [e] at hk <;> simp [hk.1] at ha

/-! ### The wait list and the gates -/

/-- A channel gives up its place on the wait list and is open from then on. -/
theorem leaveWaitList (h : s.Sound N X G) (c : Chan) : (s.leaveWaitList c).Sound N (insert c X) G := by
  have hch : ∀ d, d ≠ c → (s.leaveWaitList c).chan d = s.chan d := fun d e => by rw [State.chan_leaveWaitList, if_neg e]
  have hat : ∀ d g, ((s.leaveWaitList c).chan d).At g ↔ (s.chan d).At g := by
    intro d g
    rw [State.chan_leaveWaitList]
    split <;> rfl
  constructor
  case whole =>
    intro d hd
    rw [hch d fun e => hd (.inl e)]
    exact h.whole d fun m => hd (.inr m)
  case lease =>
    intro d hd
    rw [hch d fun e => hd (.inl e)]
    exact h.lease d fun m => hd (.inr m)
  case waiting =>
    intro w m
    obtain ⟨m, hne⟩ := List.mem_filter.1 m
    have hne : w.chan ≠ c := by simpa using hne
    rw [hch _ hne]
    exact ⟨fun e => e.elim hne (h.waiting w m).1, (h.waiting w m).2⟩
  case once => exact h.once.sublist (List.filter_sublist.map _)
  case refs => exact h.refs.same hch (by rw [State.chan_leaveWaitList, if_pos rfl]; rfl) rfl
  case idle => exact fun n g e d a => h.idle n g e d ((hat d g).1 a)
  case busy =>
    intro n g m e
    obtain ⟨d, a⟩ := h.busy n g m e
    exact ⟨d, (hat d g).2 a⟩
  case places =>
    intro n d hd e
    rw [hch d fun e => hd (.inl e)] at e
    obtain ⟨w, m, rfl⟩ := h.places n d (fun m => hd (.inr m)) e
    exact ⟨w, List.mem_filter.2 ⟨m, by simpa using fun e => hd (.inl e)⟩, rfl⟩

/-- A FREE generator without a user is granted to the oldest waiter's class, or stays FREE (R90). -/
theorem releaseGen (h : s.Sound N X G) {g : GenId} (hu : N → ∀ c, ¬(s.chan c).At g) : (s.releaseGen g).Sound N X (G \ {g}) := by
  have hgen : ∀ i, i ≠ g → (s.setGen g .free).gen i = s.gen i := fun i e => by rw [State.gen_setGen, if_neg e]
  have hidle : N → ∀ i, i ≠ g → (s.gen i).code ≠ 0x01#8 → ∀ c, ¬(s.chan c).At i := fun n i _ => h.idle n i
  have hbusy : N → ∀ i, i ∉ G \ {g} → i ≠ g → (s.gen i).code = 0x01#8 → ∃ c, (s.chan c).At i :=
    fun n i m e => h.busy n i fun hm => m ⟨hm, e⟩
  unfold State.releaseGen
  cases hw : s.carb.waitList with
  | nil =>
    rw [State.grant_of_nobody (s := s.setGen g .free) hw]
    refine ⟨h.whole, h.lease, h.waiting, h.once, h.refs, fun n i e c => ?_, fun n i m e => ?_, h.places⟩
    · by_cases ei : i = g
      exacts [ei ▸ hu n c, hidle n i ei (hgen i ei ▸ e) c]
    · by_cases ei : i = g
      · rw [ei, State.gen_setGen, if_pos rfl] at e
        cases e
      · exact hbusy n i m ei (hgen i ei ▸ e)
  | cons w rest =>
    obtain ⟨hg, ho, -, hl, hin, hout⟩ := State.grant_of_waiter (s := s.setGen g .free) (g := g) hw
    have hptab : ((s.setGen g .free).grant g).ptab = s.ptab := State.ptab_releaseGen s g
    have hlease : ((s.setGen g .free).grant g).lease = s.lease := (works_releaseGen w.chan s g).lease
    generalize ((s.setGen g .free).grant g) = u at hg ho hl hin hout hptab hlease
    have ho : ∀ i, i ≠ g → u.gen i = s.gen i := fun i e => (ho i e).trans (hgen i e)
    have hl : u.carb.waitList = s.carb.waitList.filter fun y => y.cls ≠ w.cls := hl
    have hmem : w ∈ s.carb.waitList := by rw [hw]; exact List.mem_cons_self
    -- every channel is granted, from CARRIER_WAIT, or as it was
    have hch : ∀ c, (u.chan c = (s.chan c).granted g ∧ c ∉ X ∧ (s.chan c).state = .carrierWait ∧
        ∃ y ∈ s.carb.waitList, y.cls = w.cls ∧ y.chan = c) ∨
        (u.chan c = s.chan c ∧ ∀ y ∈ s.carb.waitList, y.cls = w.cls → y.chan ≠ c) := by
      intro c
      by_cases hy : ∃ y ∈ s.carb.waitList, y.cls = w.cls ∧ y.chan = c
      · obtain ⟨y, m, e, rfl⟩ := hy
        exact .inl ⟨hin y m e, (h.waiting y m).1, (h.waiting y m).2, y, m, e, rfl⟩
      · exact .inr ⟨hout c fun y m e e' => hy ⟨y, m, e, e'⟩, fun y m e e' => hy ⟨y, m, e, e'⟩⟩
    have hgr : ∀ c, c ∉ X → (s.chan c).state = .carrierWait →
        ((s.chan c).granted g).state = .playing ∧ ((s.chan c).granted g).Whole ∧ (∀ i, ((s.chan c).granted g).At i ↔ i = g) := by
      intro c hx hs
      have hk := h.whole c hx
      have hsome : (s.chan c).active.isSome := by
        have := hk.1
        unfold Channel.Ok at this
        rw [hs] at this
        exact this.1
      have hhold := hk.hold (by rw [hs]; exact nofun)
      obtain ⟨a, ha⟩ := Option.isSome_iff_exists.1 hsome
      rw [Channel.granted_of_waiting hs]
      refine ⟨rfl, Channel.whole_playing rfl ?_ hhold, fun i => ?_⟩
      · simp [Channel.served, ha]
      · simp [Channel.At, Channel.served, Channel.attachment, ha, eq_comm]
    have hat : ∀ c i, i ≠ g → ((u.chan c).At i ↔ (s.chan c).At i) := by
      intro c i e
      rcases hch c with ⟨hc, hx, hs, -⟩ | ⟨hc, -⟩ <;> rw [hc]
      rw [(hgr c hx hs).2.2 i]
      exact ⟨fun e' => absurd e' e,
        fun a => absurd a (Channel.not_at ((h.whole c hx).attachment (by rw [hs]; exact nofun)) i)⟩
    constructor
    case whole =>
      intro c hx
      rcases hch c with ⟨hc, -, hs, -⟩ | ⟨hc, -⟩ <;> rw [hc]
      exacts [(hgr c hx hs).2.1, h.whole c hx]
    case lease =>
      intro c hx
      rcases hch c with ⟨hc, -, hs, -⟩ | ⟨hc, -⟩
      · have hfree : s.Free c := h.free hx (by rw [hs]; exact nofun) (by rw [hs]; exact nofun) (by rw [hs]; exact nofun)
        refine hfree.allows (by rw [hlease]) (by rw [hc, Channel.granted_config]) ?_
        rw [hc, (hgr c hx hs).1]
        exact nofun
      · rw [hc, hlease]
        exact h.lease c hx
    case waiting =>
      intro y m
      rw [hl] at m
      obtain ⟨m, hne⟩ := List.mem_filter.1 m
      have hne : y.cls ≠ w.cls := by simpa using hne
      refine ⟨(h.waiting y m).1, ?_⟩
      rcases hch y.chan with ⟨-, -, -, z, mz, hz, e⟩ | ⟨hc, -⟩
      · exact absurd (List.inj_on_of_nodup_map h.once mz m e ▸ hz) hne
      · rw [hc]
        exact (h.waiting y m).2
    case once =>
      rw [hl]
      exact h.once.sublist (List.filter_sublist.map _)
    case refs =>
      refine h.refs.congr (fun c => ?_) fun p => by rw [State.entry_congr hptab]
      rcases hch c with ⟨hc, -⟩ | ⟨hc, -⟩ <;> rw [hc]
      exact Channel.granted_naming g _
    case idle =>
      intro n i e c
      by_cases ei : i = g
      · rw [ei, hg] at e
        exact absurd rfl e
      · rw [hat c i ei]
        exact hidle n i ei (ho i ei ▸ e) c
    case busy =>
      intro n i m e
      by_cases ei : i = g
      · subst ei
        refine ⟨w.chan, ?_⟩
        rw [hin w (by exact hmem) rfl, State.chan_setGen, (hgr w.chan (h.waiting w hmem).1 (h.waiting w hmem).2).2.2 i]
      · obtain ⟨c, a⟩ := hbusy n i m ei (ho i ei ▸ e)
        exact ⟨c, (hat c i ei).2 a⟩
    case places =>
      intro n c hx e
      rcases hch c with ⟨hc, -, hs, -⟩ | ⟨hc, hno⟩
      · rw [hc, (hgr c hx hs).1] at e
        cases e
      · obtain ⟨y, m, rfl⟩ := h.places n c hx (hc ▸ e)
        exact ⟨y, hl ▸ List.mem_filter.2 ⟨m, by simpa using fun e' => hno y m e' rfl⟩, rfl⟩

/-- The last user of a generator has left (R87, R88). -/
theorem lastUserLeft (h : s.Sound N X G) {g : GenId} (hu : N → ∀ c, ¬(s.chan c).At g) : (s.lastUserLeft g).Sound N X (G \ {g}) := by
  have hset : ∀ x : Gen, x.code ≠ 0x01#8 → (s.setGen g x).Sound N X (G \ {g}) := by
    intro x hx
    refine ⟨h.whole, h.lease, h.waiting, h.once, h.refs, fun n i e c => ?_, fun n i m e => ?_, h.places⟩
    · by_cases ei : i = g
      · exact ei ▸ hu n c
      · rw [State.gen_setGen, if_neg ei] at e
        exact h.idle n i e c
    · by_cases ei : i = g
      · rw [ei, State.gen_setGen, if_pos rfl] at e
        exact absurd e hx
      · rw [State.gen_setGen, if_neg ei] at e
        exact h.busy n i (fun hm => m ⟨hm, ei⟩) e
  unfold State.lastUserLeft
  split
  · split
    · exact h.releaseGen hu
    · exact hset _ (by simp [Gen.code])
  · next hne =>
    have hcode : (s.gen g).code ≠ 0x01#8 := by
      cases hg : s.gen g with
      | running k p b => exact absurd hg (hne k p b)
      | free => simp [Gen.code]
      | draining => simp [Gen.code]
    exact ⟨h.whole, h.lease, h.waiting, h.once, h.refs, h.idle,
      fun n i m e => h.busy n i (fun hm => m ⟨hm, fun ei => hcode (ei ▸ e)⟩) e, h.places⟩

/-- A gate closes, what becomes of its generator left open. -/
theorem unattach (h : s.Sound N X G) (hg : ∀ g, g ∉ G' → g ∉ G ∧ ((s.chan c).At g → ∃ d, d ≠ c ∧ (s.chan d).At g)) :
    (s.modActive c fun a => { a with attach := none }).Sound N X G' := by
  have ho : ∀ d, d ≠ c → (s.modActive c fun a => { a with attach := none }).chan d = s.chan d := fun d e => by simp [e]
  have hc : (s.modActive c fun a => { a with attach := none }).chan c = (s.chan c).unattached := by simp [Channel.unattached]
  have hn : ∀ g, ¬((s.chan c).unattached).At g := Channel.not_at (Channel.unattached_attachment _)
  refine h.change (fun d hd => ?_) Iff.rfl rfl (fun _ => rfl) (h.refs.same ho ?_ rfl) (fun d g a => ?_) fun g m => ⟨(hg g m).1, fun d a => ?_⟩
  · by_cases e : d = c
    · subst e
      rw [hc]
      by_cases hp : (s.chan d).state = .playing
      · exact Channel.alike_of_fields rfl rfl rfl (by simp [Channel.unattached]) (fun _ => Channel.unattached_attachment _) (.inl hp)
      · exact .of_eq (Channel.unattached_of_none ((h.whole d hd).attachment hp))
    · exact .of_eq (ho d e)
  · rw [hc]
    exact Channel.naming_congr (by simp [Channel.unattached, Function.comp_def]) (.refl _)
  · by_cases e : d = c
    · rw [e, hc] at a
      exact absurd a (hn g)
    · exact ho d e ▸ a
  · by_cases e : d = c
    · obtain ⟨d', hne, a'⟩ := (hg g m).2 (e ▸ a)
      exact ⟨d', (ho d' hne).symm ▸ a'⟩
    · exact ⟨d, (ho d e).symm ▸ a⟩

/-- A channel detaches, and a generator that it leaves as its last user drains, is FREE or is granted (R87, R88, R90). -/
theorem detach (h : s.Sound N X G) (c : Chan) : (s.detach c).Sound N X G := by
  unfold State.detach
  split
  · exact h
  · next t ht =>
    have hat : ∀ g, (s.chan c).At g → g = t.gen := fun g a => by simpa [Channel.At, ht, eq_comm] using a
    have hu : ∀ {u : State} {i : GenId}, u.users i = [] ↔ ∀ d, ¬(u.chan d).At i := State.users_eq_nil
    have ho : ∀ d, d ≠ c → (s.modActive c fun a => { a with attach := none }).chan d = s.chan d := fun d e => by simp [e]
    dsimp only
    split
    · next he =>
      have h' := h.unattach (c := c) (G' := insert t.gen G) fun g m =>
        ⟨fun e => m (.inr e), fun a => absurd (.inl (hat g a)) m⟩
      have h'' := h'.lastUserLeft fun _ => hu.1 he
      exact ⟨h''.whole, h''.lease, h''.waiting, h''.once, h''.refs, h''.idle,
        fun n g m => h''.busy n g fun e => e.1.elim e.2 m, h''.places⟩
    · next he =>
      refine h.unattach fun g m => ⟨m, fun a => ?_⟩
      rw [hat g a]
      simp only [hu, not_forall, not_not] at he
      obtain ⟨d, hd⟩ := he
      have hne : d ≠ c := by
        rintro rfl
        refine Channel.not_at ?_ _ hd
        simp [Channel.attachment, Option.bind_map]
      exact ⟨d, hne, ho d hne ▸ hd⟩

/-- A channel gives up what it holds at CARB, and is open from then on (R92). -/
theorem giveUpCarrier (h : s.Sound N X G) (c : Chan) : (s.giveUpCarrier c).Sound N (insert c X) G :=
  (h.leaveWaitList c).detach c

/-- A request joins a generator, takes a FREE one, or waits: the channel that asks is closed by it (R81). -/
theorem request (h : s.Sound N X G) (hc : c ∈ X) (hf : s.Free c) (ha : (s.chan c).active.isSome) (hn : (s.chan c).attachment = none)
    (hh : (s.chan c).hold = none) (k : Cls) : (s.request c k).Sound N (X \ {c}) G := by
  obtain ⟨a, ha⟩ := Option.isSome_iff_exists.1 ha
  have hno := Channel.not_at hn
  have hwl : ∀ w ∈ s.carb.waitList, w.chan ≠ c := h.absent (.inl hc)
  have hout : ∀ {d}, d ∉ X \ {c} → d ≠ c → d ∉ X := fun hd e m => hd ⟨m, e⟩
  -- attached to a generator that runs from then on
  have attach : ∀ (g : GenId) (x : Gen) (gate : Gate), x.code = 0x01#8 →
      ((s.setGen g x).modChan c (Channel.attached g gate)).Sound N (X \ {c}) G := by
    intro g x gate hx
    have ho : ∀ d, d ≠ c → ((s.setGen g x).modChan c (Channel.attached g gate)).chan d = s.chan d := fun d e => by simp [e]
    have hcc : ((s.setGen g x).modChan c (Channel.attached g gate)).chan c = (s.chan c).attached g gate := by simp
    have hg : ∀ i, ((s.setGen g x).modChan c (Channel.attached g gate)).gen i = if i = g then x else s.gen i := fun i => by simp
    have hat : ∀ i, ((s.chan c).attached g gate).At i ↔ i = g := fun i => by
      simp [Channel.At, Channel.attached, Channel.attachment, ha, eq_comm]
    have hat' : ∀ d i, i ≠ g → ((((s.setGen g x).modChan c (Channel.attached g gate)).chan d).At i ↔ (s.chan d).At i) := by
      intro d i e
      by_cases ed : d = c
      · subst ed
        rw [hcc, hat]
        exact ⟨fun e' => absurd e' e, fun a => absurd a (hno i)⟩
      · rw [ho d ed]
    have hstate : ((s.chan c).attached g gate).state = .playing := rfl
    have hwaitList : ((s.setGen g x).modChan c (Channel.attached g gate)).carb.waitList = s.carb.waitList := rfl
    have hlease : ((s.setGen g x).modChan c (Channel.attached g gate)).lease = s.lease := rfl
    have hnaming : ((s.chan c).attached g gate).naming = (s.chan c).naming :=
      Channel.naming_congr (by simp [Channel.attached, ha]) (.refl _)
    have hrefs := h.refs.same (t := (s.setGen g x).modChan c (Channel.attached g gate)) ho (hcc ▸ hnaming) rfl
    generalize ((s.setGen g x).modChan c (Channel.attached g gate)) = u at *
    refine ⟨fun d hd => ?_, fun d hd => ?_, fun w m => ?_, hwaitList ▸ h.once, hrefs, fun n i e d => ?_, fun n i m e => ?_, fun n d hd e => ?_⟩
    · by_cases e : d = c
      · subst e
        rw [hcc]
        exact Channel.whole_playing rfl (by simp [Channel.attached, ha]) hh
      · rw [ho d e]
        exact h.whole d (hout hd e)
    · by_cases e : d = c
      · subst e
        exact hf.allows (by rw [hlease]) (by rw [hcc]; rfl) (by rw [hcc, hstate]; exact nofun)
      · rw [ho d e, hlease]
        exact h.lease d (hout hd e)
    · rw [hwaitList] at m
      rw [ho _ (hwl w m)]
      exact ⟨fun e => (h.waiting w m).1 e.1, (h.waiting w m).2⟩
    · rw [hg] at e
      split at e
      · exact absurd hx e
      · next ei =>
        rw [hat' d i ei]
        exact h.idle n i e d
    · by_cases ei : i = g
      · exact ⟨c, by rw [hcc]; exact (hat i).2 ei⟩
      · rw [hg, if_neg ei] at e
        obtain ⟨d, a⟩ := h.busy n i m e
        exact ⟨d, (hat' d i ei).2 a⟩
    · by_cases ed : d = c
      · subst ed
        rw [hcc, hstate] at e
        cases e
      · rw [ho d ed] at e
        rw [hwaitList]
        exact h.places n d (hout hd ed) e
  unfold State.request
  split
  · next g hk =>
    refine attach g _ _ ?_
    have hcls : (s.gen g).cls = some k := by simpa using List.find?_some hk
    cases hg : s.gen g with
    | free => rw [hg] at hcls; cases hcls
    | running => rfl
    | draining => rfl
  · split
    · exact attach _ _ .opened rfl
    · -- it waits behind every channel already waiting
      have ho : ∀ d, d ≠ c → (s.wait c k).chan d = s.chan d := fun d e => by simp [State.wait, e]
      have hcc : (s.wait c k).chan c = (s.chan c).waiting := by simp [State.wait]
      have hw : (s.wait c k).carb.waitList = s.carb.waitList ++ [⟨c, k⟩] := rfl
      have hg : ∀ i, (s.wait c k).gen i = s.gen i := fun i => rfl
      have hlease : (s.wait c k).lease = s.lease := rfl
      have hno' : (s.chan c).waiting.attachment = none := by simp [Channel.waiting, Channel.attachment, ha]
      have hat : ∀ d i, ((s.wait c k).chan d).At i ↔ (s.chan d).At i := by
        intro d i
        by_cases e : d = c
        · subst e
          rw [hcc]
          exact ⟨fun a => absurd a (Channel.not_at hno' i), fun a => absurd a (hno i)⟩
        · rw [ho d e]
      have hnaming : (s.chan c).waiting.naming = (s.chan c).naming :=
        Channel.naming_congr (by simp [Channel.waiting, ha]) (.refl _)
      have hrefs := h.refs.same (t := s.wait c k) ho (hcc ▸ hnaming) rfl
      generalize s.wait c k = u at *
      refine ⟨fun d hd => ?_, fun d hd => ?_, fun w m => ?_, ?_, hrefs, fun n i e d => ?_, fun n i m e => ?_, fun n d hd e => ?_⟩
      · by_cases e : d = c
        · subst e
          rw [hcc]
          exact Channel.whole_carrierWait rfl (by simp [Channel.waiting, ha]) hno' hh
        · rw [ho d e]
          exact h.whole d (hout hd e)
      · by_cases e : d = c
        · subst e
          exact hf.allows (by rw [hlease]) (by rw [hcc]; rfl) (by rw [hcc]; exact nofun)
        · rw [ho d e, hlease]
          exact h.lease d (hout hd e)
      · rw [hw] at m
        rcases List.mem_append.1 m with m | m
        · rw [ho _ (hwl w m)]
          exact ⟨fun e => (h.waiting w m).1 e.1, (h.waiting w m).2⟩
        · rw [List.mem_singleton.1 m, hcc]
          exact ⟨fun e => e.2 rfl, rfl⟩
      · rw [hw, List.map_append, List.nodup_append]
        refine ⟨h.once, by simp, ?_⟩
        rintro x m y m' rfl
        obtain ⟨w, mw, e⟩ := List.mem_map.1 m
        exact hwl w mw (by rw [e]; simpa using m')
      · rw [hat]
        exact h.idle n i (hg i ▸ e) d
      · obtain ⟨d, a⟩ := h.busy n i m (hg i ▸ e)
        exact ⟨d, (hat d i).2 a⟩
      · by_cases ed : d = c
        · exact ⟨⟨c, k⟩, by rw [hw]; simp, ed.symm⟩
        · rw [ho d ed] at e
          obtain ⟨w, m, e⟩ := h.places n d (hout hd ed) e
          exact ⟨w, by rw [hw]; exact List.mem_append_left _ m, e⟩

end State.Sound

end Sys2Proof.Machine
end

section
/-! PROOFS. That the work of a channel keeps `State.Sound`: ending and starting jobs, the head decision, entering and ending steps, holding,
stopping and leaving (chapters 2 and 3). Each lemma takes the channel open or closed, and leaves it closed. -/

namespace Sys2Proof.Machine

variable {s t : State} {c d : Chan} {N : Prop} {X : Set Chan} {G : Set GenId}

theorem reopen_closed (h : c ∈ X) : insert c (X \ {c}) = X := by
  rw [Set.insert_sdiff_singleton, Set.insert_eq_of_mem h]

theorem close_opened (X : Set Chan) (c : Chan) : insert c X \ {c} = X \ {c} :=
  Set.insert_sdiff_of_mem X rfl

theorem close_closed (h : c ∉ X) : X \ {c} = X :=
  Set.sdiff_singleton_eq_self h

theorem Channel.naming_starting {ch : Channel} {j : Job} {rest : List Job} (ha : ch.active = none) (hq : ch.queue = j :: rest) (n : Byte) :
    (Channel.starting j rest n ch).naming = ch.naming := by
  funext p
  simp only [Channel.naming, Channel.starting, Job.starting, ha, hq, Option.map_some, Option.map_none, List.countP_cons, decide_eq_true_eq,
    Option.some.injEq, reduceCtorEq, if_false]
  omega

namespace State.Sound

/-! ### The end of a job and the head decision -/

/-- An active job ends; its channel is open from then on. -/
theorem endJob (h : s.Sound N X G) {a : Active} (ha : (s.chan c).active = some a) (o : JobOutcome) :
    (s.endJob c o).Sound N (insert c X) G := by
  have hg := h.giveUpCarrier c
  refine hg.own (c := c) (fun d e => State.chan_endJob_other o ha e) (State.carb_endJob o ha) ?_ ?_ (.inl (.inl rfl)) ?_
  · rw [(works_endJob c s o).lease, (works_giveUpCarrier c s).lease]
  · refine hg.refs.drop (p := a.job.pattern) (fun d e => State.chan_endJob_other o ha e) (fun q => ?_) fun q => ?_
    · rw [State.chan_endJob_same o ha, State.chan_giveUpCarrier_same]
      simp only [Channel.naming, Channel.ended, Channel.unattached, ha, Option.map_some, Option.map_none, Option.some.injEq, reduceCtorEq,
        if_false, eq_comm (a := q)]
      omega
    · rw [State.entry_congr (State.ptab_endJob o ha), State.entry_dropRef, State.entry_congr (s.ptab_giveUpCarrier c)]
  · rw [State.chan_endJob_same o ha, State.chan_giveUpCarrier_same, Channel.unattached_attachment]
    rfl

/-- An open channel that has no job and nothing queued becomes IDLE. -/
theorem becomeIdle (h : s.Sound N X G) (hc : c ∈ X) (hf : s.Free c) (ha : (s.chan c).active = none) (hh : (s.chan c).hold = none)
    (hq : (s.chan c).queue = []) : (s.modChan c Channel.becomeIdle).Sound N (X \ {c}) G := by
  have hcc : (s.modChan c Channel.becomeIdle).chan c = (s.chan c).becomeIdle := by simp
  have ho : ∀ d, d ≠ c → (s.modChan c Channel.becomeIdle).chan d = s.chan d := fun d e => by simp [e]
  have hn : (s.chan c).becomeIdle.naming = (s.chan c).naming :=
    Channel.naming_congr rfl (by rw [hq]; exact .refl _)
  have h' := h.own (t := s.modChan c Channel.becomeIdle) ho rfl rfl (h.refs.same ho (hcc ▸ hn) rfl) (.inl hc) (by rw [hcc]; rfl)
  refine h'.close ?_ (hf.allows rfl (by rw [hcc]; rfl) (by rw [hcc]; exact nofun)) (by rw [hcc]; exact nofun)
  rw [hcc]
  exact Channel.whole_resting (.inr (.inl rfl)) ha rfl hh

/-- An open channel that has no job is ARMED for the head of its queue. -/
theorem armFor (h : s.Sound N X G) (hc : c ∈ X) (hf : s.Free c) (ha : (s.chan c).active = none) (hh : (s.chan c).hold = none)
    {j : Job} {rest : List Job} (hq : (s.chan c).queue = j :: rest) (hs : j.start ≠ .now) :
    (s.modChan c (Channel.armFor j rest)).Sound N (X \ {c}) G := by
  have hcc : (s.modChan c (Channel.armFor j rest)).chan c = (s.chan c).armFor j rest := by simp
  have ho : ∀ d, d ≠ c → (s.modChan c (Channel.armFor j rest)).chan d = s.chan d := fun d e => by simp [e]
  have hn : ((s.chan c).armFor j rest).naming = (s.chan c).naming :=
    Channel.naming_congr rfl (by rw [hq]; exact .refl _)
  have h' := h.own (t := s.modChan c (Channel.armFor j rest)) ho rfl rfl (h.refs.same ho (hcc ▸ hn) rfl) (.inl hc) (by rw [hcc]; rfl)
  refine h'.close ?_ (hf.allows rfl (by rw [hcc]; rfl) (by rw [hcc]; exact nofun)) (by rw [hcc]; exact nofun)
  have hnum : (armHead (s.chan c).armed j).number = j.number := by
    unfold armHead
    repeat' split
    all_goals first
      | assumption
      | rfl
  rw [hcc]
  refine ⟨⟨ha, j, rest, rfl, hs, congrArg some hnum⟩, ?_⟩
  simp [Channel.armFor, hh]

/-- The head of an open channel's queue becomes its active job. -/
theorem startJob (h : s.Sound N X G) (hc : c ∈ X) (ha : (s.chan c).active = none) {j : Job} {rest : List Job}
    (hq : (s.chan c).queue = j :: rest) : (s.startJob c j rest).Sound N X G := by
  have ha' := s.alone_startJob c j rest
  refine h.own ha'.others (State.carb_startJob c s j rest) (works_startJob c s j rest hq).lease (h.refs.same ha'.others ?_ (s.ptab_startJob c j rest))
    (.inl hc) ?_
  · rw [ha'.own, Channel.naming_starting ha hq]
  · rw [ha'.own, Channel.attachment_of_inactive ha]
    rfl

/-- The steps' marks are reports alone. -/
theorem markEntry (h : s.Sound N X G) (a : Active) (x : Step) : (s.markEntry c a x).Sound N X G := by
  unfold State.markEntry
  split
  exacts [h.congr (fun _ => rfl) rfl (fun _ => rfl) Iff.rfl, h]

/-- What the entry of a step leaves: the channel is closed by it, or its job ends there, before or after it was closed. -/
structure Entered (N : Prop) (X : Set Chan) (G : Set GenId) (s : State) (c : Chan) (r : State × Option JobOutcome) : Prop where
  goesOn : r.2 = none → r.1.Sound N (X \ {c}) G
  ends : ∃ Y, insert c Y = X ∧ r.1.Sound N Y G
  active : ∃ b, (r.1.chan c).active = some b
  hold : (r.1.chan c).hold = none
  awake : (r.1.chan c).state ≠ .held
  queue : (r.1.chan c).queue = (s.chan c).queue

/-- A step entry that has closed the channel. -/
theorem Entered.of_closed (hc : c ∈ X) {r : State × Option JobOutcome} (h : r.1.Sound N (X \ {c}) G)
    (ha : ∃ b, (r.1.chan c).active = some b) (hh : (r.1.chan c).hold = none) (hst : (r.1.chan c).state ≠ .held)
    (hq : (r.1.chan c).queue = (s.chan c).queue) : Entered N X G s c r :=
  ⟨fun _ => h, ⟨_, reopen_closed hc, h⟩, ha, hh, hst, hq⟩

/-- The channel after its request, whichever way that is decided (R81). -/
theorem chan_request {a : Active} (ha : (s.chan c).active = some a) (k : Cls) :
    (∃ b, ((s.request c k).chan c).active = some b) ∧ ((s.request c k).chan c).hold = (s.chan c).hold ∧
      ((s.request c k).chan c).state ≠ .held ∧ ((s.request c k).chan c).queue = (s.chan c).queue := by
  rcases s.request_cases c k with ⟨g, -, e⟩ | ⟨g, -, -, e⟩ | ⟨-, e⟩ <;> rw [e]
  · rw [(s.alone_join c g).own]
    exact ⟨Option.isSome_iff_exists.1 (by simp [Channel.attached, ha]), rfl, nofun, rfl⟩
  · rw [(s.alone_allocate c k g).own]
    exact ⟨Option.isSome_iff_exists.1 (by simp [Channel.attached, ha]), rfl, nofun, rfl⟩
  · rw [(s.alone_wait c k).own]
    exact ⟨Option.isSome_iff_exists.1 (by simp [Channel.waiting, ha]), rfl, nofun, rfl⟩

/-- The active job's playing fields change on an open channel that has no gate. -/
theorem modActive (h : s.Sound N X G) (hc : c ∈ X) (f : Active → Active) (hj : ∀ a, (f a).job.pattern = a.job.pattern)
    (hf : ∀ a, (f a).attach = a.attach) : (s.modActive c f).Sound N X G := by
  have ha := State.Alone.modActive s c f
  refine h.own ha.others rfl rfl (h.refs.same ha.others ?_ rfl) (.inl hc) ?_ <;> rw [ha.own]
  · refine Channel.naming_congr ?_ (.refl _)
    cases (s.chan c).active <;> simp [hj]
  · unfold Channel.attachment
    cases (s.chan c).active <;> simp [hf]

/-- An open channel enters a step (R50, R55). -/
theorem enterStep (h : s.Sound N X G) (hc : c ∈ X) (hf : s.Free c) {a : Active} (ha : (s.chan c).active = some a) (hn : a.attach = none)
    (hh : (s.chan c).hold = none) (hst : (s.chan c).state = .playing) : Entered N X G s c (s.enterStep c) := by
  have stays : Entered N X G s c (s, none) :=
    .of_closed hc (h.close (Channel.whole_playing hst (by simp [ha]) hh) (hf.allows rfl rfl (by rw [hst]; exact nofun)) (by rw [hst]; exact nofun))
      ⟨a, ha⟩ hh (by rw [hst]; exact nofun) rfl
  have steady : ∀ x, Entered N X G s c ((s.modChan c (Channel.enterSteady (s.stepLength a.job.pattern x))).markEntry c a x, none) := by
    intro x
    generalize s.stepLength a.job.pattern x = length
    have hm := State.Alone.modChan s c (Channel.enterSteady length)
    have he := hm.trans (State.alone_markEntry _ c a x)
    rw [hm.own] at he
    have hs : ((s.modChan c (Channel.enterSteady length)).markEntry c a x).Sound N X G := by
      refine markEntry (h.own hm.others rfl rfl (h.refs.same hm.others ?_ rfl) (.inl hc) ?_) a x <;> rw [hm.own]
      · exact Channel.naming_congr (by simp [Channel.enterSteady, ha]) (.refl _)
      · simp [Channel.enterSteady, Channel.attachment, ha]
    have hw : Works c s ((s.modChan c (Channel.enterSteady length)).markEntry c a x) :=
      (works_fields c s (Channel.enterSteady length) (fun _ => rfl) (fun _ => rfl) fun ch => by
        unfold Channel.enterSteady; cases ch.active <;> rfl).trans (works_markEntry c _ a x)
    refine .of_closed hc (hs.close ?_ (hf.allows (by rw [hw.lease]) hw.own.config ?_) ?_) ?_ ?_ ?_ ?_ <;> rw [he.own]
    · exact Channel.whole_playing rfl (by simp [Channel.enterSteady, ha]) hh
    · exact nofun
    · exact nofun
    · exact Option.isSome_iff_exists.1 (by simp [Channel.enterSteady, ha])
    · exact hh
    · exact nofun
    · rfl
  unfold State.enterStep
  simp only [ha]
  cases hx : s.currentStep a with
  | none => exact stays
  | some x =>
    cases hk : x.kind with
    | carrier k =>
      simp only [hk]
      unfold State.enterCarrierStep
      cases hcl : s.carrierClass k with
      | none => exact ⟨nofun, ⟨X, Set.insert_eq_of_mem hc, h⟩, ⟨a, ha⟩, hh, by rw [hst]; exact nofun, rfl⟩
      | some y =>
        dsimp only
        have hu := markEntry (c := c) (h.modActive hc (Active.enterCarrier (s.stepLength a.job.pattern x)) (fun _ => rfl) fun _ => rfl) a x
        have hch := ((State.Alone.modActive s c (Active.enterCarrier (s.stepLength a.job.pattern x))).trans (State.alone_markEntry _ c a x)).own
        rw [(State.Alone.modActive s c _).own] at hch
        have hlease : ((s.modActive c (Active.enterCarrier (s.stepLength a.job.pattern x))).markEntry c a x).lease = s.lease :=
          (works_markEntry c _ a x).lease
        generalize ((s.modActive c (Active.enterCarrier (s.stepLength a.job.pattern x))).markEntry c a x) = u at *
        have ha' : (u.chan c).active = some (a.enterCarrier (s.stepLength a.job.pattern x)) := by rw [hch, ha]; rfl
        obtain ⟨h1, h2, h3, h4⟩ := chan_request ha' k
        have hr := hu.request hc (hf.congr (by rw [hlease]) (by rw [hch])) (by rw [ha']; rfl)
          (by simp [Channel.attachment, ha', Active.enterCarrier, hn]) (by rw [hch]; exact hh) k
        exact .of_closed hc hr h1 (h2.trans (by rw [hch]; exact hh)) h3 (h4.trans (by rw [hch]))
    | active => simpa only [hk] using steady x
    | inactive => simpa only [hk] using steady x
    | rest => simpa only [hk] using steady x

/-- The head of an open channel's queue starts: the channel is closed by it, or is open without a job again (R31). -/
theorem starts (h : s.Sound N X G) (hc : c ∈ X) (hf : s.Free c) (ha : (s.chan c).active = none) (hh : (s.chan c).hold = none)
    {j : Job} {rest : List Job} (hq : (s.chan c).queue = j :: rest) :
    (((s.startJob c j rest).enterStep c).2 = none → ((s.startJob c j rest).enterStep c).1.Sound N (X \ {c}) G) ∧
      ∀ o, ((s.startJob c j rest).enterStep c).2 = some o →
        let t := ((s.startJob c j rest).enterStep c).1.endJob c o
        t.Sound N X G ∧ t.Free c ∧ (t.chan c).active = none ∧ (t.chan c).hold = none ∧ (t.chan c).queue = rest := by
  have hch := (s.alone_startJob c j rest).own
  have hfr := hf.works (works_startJob c s j rest hq)
  have he := (h.startJob hc ha hq).enterStep (a := j.starting (s.repeatsOf j.pattern)) hc hfr (by rw [hch]; rfl) rfl (by rw [hch]; exact hh)
    (by rw [hch]; rfl)
  refine ⟨he.goesOn, fun o _ => ?_⟩
  obtain ⟨Y, hY, hs'⟩ := he.ends
  obtain ⟨b, hb⟩ := he.active
  have hend := State.chan_endJob_same o hb
  refine ⟨hY ▸ hs'.endJob hb o, (hfr.works (works_enterStep c _)).works (works_endJob c _ o), ?_, ?_, ?_⟩ <;> rw [hend]
  · rfl
  · exact he.hold
  · exact he.queue.trans (by rw [hch]; rfl)

/-- An open channel without a job takes the head decision, and is closed by it (R23). -/
theorem decideHead (c : Chan) (q : List Job) : ∀ {s : State}, s.Sound N X G → c ∈ X → s.Free c → (s.chan c).active = none →
    (s.chan c).hold = none → (s.chan c).queue = q → (State.decideHead c q s).Sound N (X \ {c}) G := by
  induction q with
  | nil => exact fun h hc hf ha hh hq => h.becomeIdle hc hf ha hh hq
  | cons j rest ih =>
    intro s h hc hf ha hh hq
    by_cases hs : j.start = .now
    · have hst := h.starts hc hf ha hh hq
      unfold State.decideHead
      simp only [hs]
      cases hr : (s.startJob c j rest).enterStep c with
      | mk t o =>
        rw [hr] at hst
        cases o with
        | none => exact hst.1 rfl
        | some o =>
          obtain ⟨ht, hf', ha', hh', hq'⟩ := hst.2 o rfl
          exact ih ht hc hf' ha' hh' hq'
    · rw [State.decideHead_arms c rest s hs]
      exact h.armFor hc hf ha hh hq hs

/-- An open channel whose job has ended goes on (R60). -/
theorem afterEnd (h : s.Sound N X G) (hc : c ∈ X) (hf : s.Free c) (ha : (s.chan c).active = none)
    (hh : (s.chan c).hold.isSome ↔ (s.chan c).state = .held) : (s.afterEnd c).Sound N (X \ {c}) G := by
  unfold State.afterEnd
  split
  · next hs =>
    have hm := State.Alone.modChan s c Channel.heldWithoutJob
    have h' : (s.modChan c Channel.heldWithoutJob).Sound N X G :=
      h.own hm.others rfl rfl (h.refs.same hm.others (by rw [hm.own]; rfl) rfl) (.inl hc) (by rw [hm.own]; rfl)
    obtain ⟨x, hx⟩ := Option.isSome_iff_exists.1 (hh.2 hs)
    refine h'.close ?_ (hf.allows rfl (by rw [hm.own]; rfl) ?_) ?_ <;> rw [hm.own]
    · exact Channel.whole_held hs (x := x.heldFrom) (r := none) (by simp [Channel.heldWithoutJob, hx]) (by simp [Channel.heldWithoutJob, ha])
        (Channel.attachment_of_inactive ha)
    · exact fun e => by cases hs.symm.trans e
    · exact fun e => by cases hs.symm.trans e
  · next hs => exact h.decideHead c _ hc hf ha (by simpa using hh.not.2 hs) rfl

/-- The active job of a channel ends and the channel goes on (R60). -/
theorem finishJob (h : s.Sound N X G) (hf : s.Free c) {a : Active} (ha : (s.chan c).active = some a)
    (hh : (s.chan c).hold.isSome ↔ (s.chan c).state = .held) (o : JobOutcome) : (s.finishJob c o).Sound N (X \ {c}) G := by
  have hch := State.chan_endJob_same o ha
  rw [← close_opened]
  refine (h.endJob ha o).afterEnd (.inl rfl) (hf.works (works_endJob c s o)) ?_ ?_ <;> rw [hch]
  · rfl
  · exact hh

/-- The active job of a closed channel ends and the channel goes on. -/
theorem finish (h : s.Sound N X G) (hc : c ∉ X) {a : Active} (ha : (s.chan c).active = some a) (o : JobOutcome) :
    (s.finishJob c o).Sound N X G := by
  have h' := h.finishJob (h.free_of_active hc (by rw [ha]; rfl)) ha (h.whole c hc).2 o
  rwa [close_closed hc] at h'

/-- A step is entered, and the job ends if the entry says so (R50, R55). -/
theorem enterNext (h : s.Sound N X G) (hc : c ∈ X) (hf : s.Free c) {a : Active} (ha : (s.chan c).active = some a) (hn : a.attach = none)
    (hh : (s.chan c).hold = none) (hst : (s.chan c).state = .playing) : (s.enterNext c).Sound N (X \ {c}) G := by
  have he := h.enterStep hc hf ha hn hh hst
  have hw := works_enterStep c s
  unfold State.enterNext
  cases hr : s.enterStep c with
  | mk t o =>
    rw [hr] at he hw
    cases o with
    | none => exact he.goesOn rfl
    | some o =>
      obtain ⟨Y, hY, hs'⟩ := he.ends
      obtain ⟨b, hb⟩ := he.active
      have hk := hs'.finishJob (hf.works hw) hb (by simp [he.hold, he.awake]) o
      rwa [← hY, close_opened]

/-! ### Step ends -/

/-- A job that goes on keeps its gate, and names the same pattern or a READY one (R52). -/
theorem nextStep_goesOn {a next : Active} (e : s.nextStep a = .goesOn next) :
    next.attach = a.attach ∧ (next.job.pattern = a.job.pattern ∨ (s.entry next.job.pattern).isReady = true) := by
  unfold State.nextStep at e
  split at e
  · split at e
    · split at e
      · cases e; exact ⟨rfl, .inl rfl⟩
      · cases e
    · split at e
      · cases e; exact ⟨rfl, .inl rfl⟩
      · unfold State.passNext at e
        split at e
        · cases e; exact ⟨rfl, .inl rfl⟩
        · unfold State.finalNext at e
          split at e
          · cases e
          · split at e
            · next hr => cases e; exact ⟨rfl, .inr (by simp [Active.chained, hr, Entry.isReady])⟩
            · cases e
  · cases e

end State.Sound

end Sys2Proof.Machine
end

section
/-! PROOFS. That step ends, holding, resuming, cycle ends, preemption, dropping, stopping and leaving keep `State.Sound` (chapters 2 to 5). -/

namespace Sys2Proof.Machine

variable {s t : State} {c d : Chan} {N : Prop} {X : Set Chan} {G : Set GenId} {a : Active}

/-- A job passes to another pattern, a READY one, or keeps its own. -/
theorem State.RefsOk.moveRef {b : Active} (h : s.RefsOk) (ho : ∀ d, d ≠ c → t.chan d = s.chan d) (ha : (s.chan c).active = some a)
    (hb : (t.chan c).active = some b) (hq : (t.chan c).queue = (s.chan c).queue)
    (hp : b.job.pattern = a.job.pattern ∨ (s.entry b.job.pattern).isReady = true)
    (ht : t.ptab = (s.moveRef a.job.pattern b.job.pattern).ptab) : t.RefsOk := by
  by_cases e : b.job.pattern = a.job.pattern
  · rw [e, State.moveRef_self] at ht
    exact h.same ho (Channel.naming_congr (by rw [ha, hb, Option.map_some, Option.map_some, e]) (by rw [hq])) ht
  · intro q
    have hu := State.naming_update ho q
    have hs := h q
    have hr := hp.resolve_left e
    rw [State.entry_congr ht, State.entry_moveRef e]
    simp only [Channel.naming, ha, hb, hq, Option.map_some, Option.some.injEq] at hu
    by_cases e1 : q = b.job.pattern
    · subst e1
      obtain ⟨g, steps, n, hx⟩ := Entry.isReady_iff.1 hr
      simp only [hx, if_true, Entry.addRef, Entry.refs, Ne.symm e, if_false] at hu hs ⊢
      omega
    · by_cases e2 : q = a.job.pattern
      · subst e2
        have hd : (s.entry a.job.pattern).dropRef.refs = (s.entry a.job.pattern).refs - 1 := by
          cases s.entry a.job.pattern <;> rfl
        simp only [if_true, e, e1, if_false, hd] at hu ⊢
        omega
      · simp only [e1, e2, Ne.symm e1, Ne.symm e2, if_false] at hu ⊢
        omega

namespace State.Sound

/-- The active job of a closed PLAYING or HELD channel is replaced by what it goes on as, under the same gate. -/
theorem goesOn (h : s.Sound N X G) (hc : c ∉ X) (ha : (s.chan c).active = some a) {next : Active} (hnext : s.nextStep a = .goesOn next)
    {f : Channel → Channel} {b : Active} (hb : (f (s.chan c)).active = some b) (hp : b.job.pattern = next.job.pattern)
    (hg : b.attach = next.attach) (hq : (f (s.chan c)).queue = (s.chan c).queue) (hw : (f (s.chan c)).Whole)
    (hs : (f (s.chan c)).state = (s.chan c).state) (hn : (s.chan c).state ≠ .carrierWait) (hcfg : (f (s.chan c)).config = (s.chan c).config) :
    ((s.moveRef a.job.pattern next.job.pattern).modChan c f).Sound N X G := by
  have hm := (s.alone_moveRef c a.job.pattern next.job.pattern).thenChan f
  obtain ⟨hat, hready⟩ := nextStep_goesOn hnext
  have hlease : ((s.moveRef a.job.pattern next.job.pattern).modChan c f).lease = s.lease := (works_moveRef c s _ _).lease
  have h' : ((s.moveRef a.job.pattern next.job.pattern).modChan c f).Sound N (insert c X) G := by
    refine (h.openUp (h.absent (.inr hn))).own hm.others (State.carb_moveRef s _ _) hlease
      (h.refs.moveRef hm.others ha (b := b) (by rw [hm.own]; exact hb) (by rw [hm.own]; exact hq) (hp ▸ hready) (by rw [hp]; rfl))
      (.inl (.inl rfl)) ?_
    rw [hm.own, Channel.attachment, Channel.attachment, hb, ha]
    exact hg.trans hat
  rw [← close_closed hc, ← close_opened]
  refine h'.close (by rw [hm.own]; exact hw) ?_ (by rw [hm.own, hs]; exact hn)
  rw [hm.own, hlease]
  have := h.lease c hc
  unfold LeaseTimer.Allows at this ⊢
  rwa [hs, hcfg]

/-- A closed PLAYING channel's step ends (R52, R54, R57, R94). -/
theorem stepEnd (h : s.Sound N X G) (hc : c ∉ X) (hst : (s.chan c).state = .playing) : (s.stepEnd c).Sound N X G := by
  have hk := h.whole c hc
  have hhold : (s.chan c).hold = none := hk.hold (by rw [hst]; exact nofun)
  have hne : (s.chan c).state ≠ .carrierWait := by rw [hst]; exact nofun
  unfold State.stepEnd
  cases ha : (s.chan c).active with
  | none => exact h
  | some a =>
    cases hnext : s.nextStep a with
    | ends o =>
      dsimp only
      rw [hnext]
      exact h.finish hc ha o
    | goesOn next =>
      dsimp only
      rw [hnext]
      have goes : ∀ b : Active, b.job = next.job → b.attach = next.attach →
          ((s.moveRef a.job.pattern next.job.pattern).modChan c (Channel.withActive b)).Sound N X G := fun b hj hb =>
        h.goesOn hc ha hnext (b := b) rfl (congrArg Job.pattern hj) hb rfl (Channel.whole_playing hst rfl hhold) rfl hne rfl
      dsimp only
      split
      · unfold State.continueStep
        split
        · exact goes next rfl rfl
        · next x _ =>
          refine (goes { next with
            remaining := (s.moveRef a.job.pattern next.job.pattern).stepLength next.job.pattern x, clock := .running } rfl rfl).markEntry _ _
      · have hg := goes next rfl rfl
        have hown := ((s.alone_moveRef c a.job.pattern next.job.pattern).thenChan (Channel.withActive next)).own
        generalize (s.moveRef a.job.pattern next.job.pattern).modChan c (Channel.withActive next) = u at hg hown ⊢
        have hu : ∀ w ∈ u.carb.waitList, w.chan ≠ c := hg.absent (.inr (by rw [hown]; exact hne))
        have hd := State.chan_detach_same hu
        rw [hown] at hd
        have hf : u.Free c := hg.free_of_active hc (by rw [hown]; rfl)
        have ho : (u.detach c).Sound N (insert c X) G := (hg.openUp hu).detach c
        have := ho.enterNext (.inl rfl) (hf.works (works_detach c u)) (a := { next with attach := none }) (by rw [hd]; rfl) rfl
          (by rw [hd]; exact hhold) (by rw [hd]; exact hst)
        rwa [close_opened, close_closed hc] at this

/-! ### Holding -/

/-- A closed HELD channel ends a job with a pending stop and a completed step (R66, R71). -/
theorem heldStep (h : s.Sound N X G) (hc : c ∉ X) (hst : (s.chan c).state = .held) : (s.heldStep c).Sound N X G := by
  have hk := h.whole c hc
  unfold State.heldStep
  cases ha : (s.chan c).active with
  | none => exact h
  | some a =>
    dsimp only
    split
    · exact h.finish hc ha _
    · split
      · split
        · exact h.finish hc ha _
        · next next hnext =>
          obtain ⟨x, hx⟩ := Option.isSome_iff_exists.1 (hk.2.2 hst)
          have hn : a.attach = none := by
            have := hk.attachment (by rw [hst]; exact nofun)
            simpa [Channel.attachment, ha] using this
          exact h.goesOn hc ha hnext (f := Channel.heldAtEntry next) (b := { next with remaining := 0, clock := .notStarted, sampleDue := false })
            rfl rfl rfl rfl (Channel.whole_held hst (x := x.heldFrom) (r := some .atEntry) (by simp [Channel.heldAtEntry, hx])
              (by simp [Channel.heldAtEntry]) (by simpa [Channel.heldAtEntry, Channel.attachment] using (nextStep_goesOn hnext).1.trans hn))
            rfl (by rw [hst]; exact nofun) rfl
      · exact h

/-- A closed channel with an active job becomes HELD (R71 to R74). -/
theorem holdJob (h : s.Sound N X G) (hc : c ∉ X) (ha : (s.chan c).active.isSome) (x : HeldFrom) (r : ResumePoint) :
    (s.holdJob c x r).Sound N X G := by
  obtain ⟨a, ha⟩ := Option.isSome_iff_exists.1 ha
  have hf : s.Free c := h.free_of_active hc (by rw [ha]; rfl)
  have hm := State.Alone.modChan (s.giveUpCarrier c) c (Channel.becomeHeld x (some r))
  have hown := hm.own
  rw [State.chan_giveUpCarrier_same] at hown
  have hg := h.giveUpCarrier c
  have hs : ((s.giveUpCarrier c).modChan c (Channel.becomeHeld x (some r))).Sound N X G := by
    have h' : ((s.giveUpCarrier c).modChan c (Channel.becomeHeld x (some r))).Sound N (insert c X) G := by
      refine hg.own hm.others rfl rfl (hg.refs.same hm.others ?_ rfl) (.inl (.inl rfl)) ?_ <;> rw [hown, State.chan_giveUpCarrier_same]
      · exact Channel.naming_congr (by simp [Channel.becomeHeld, Channel.unattached, Active.frozenAt, ha]) (.refl _)
      · simp [Channel.becomeHeld, Channel.unattached, Active.frozenAt, Channel.attachment, ha]
    rw [← close_closed hc, ← close_opened]
    refine h'.close ?_ (hf.allows (congrArg LeaseTimer.state (works_giveUpCarrier c s).lease) (by rw [hown]; rfl) ?_) ?_ <;> rw [hown]
    · exact Channel.whole_held (x := x) (r := some r) rfl rfl (by simp [Channel.becomeHeld, Channel.unattached, ha])
        (by simp [Channel.becomeHeld, Channel.unattached, Active.frozenAt, Channel.attachment, ha])
    · exact nofun
    · exact nofun
  exact hs.heldStep hc (by rw [hown]; rfl)

/-- A closed channel without an active job, on no wait list, is replaced by another. -/
theorem replace (h : s.Sound N X G) (hc : c ∉ X) {f : Channel → Channel} (hs : (s.chan c).state ≠ .carrierWait)
    (hn : (f (s.chan c)).naming = (s.chan c).naming) (ha : (f (s.chan c)).attachment = (s.chan c).attachment)
    (hw : (f (s.chan c)).Whole) (hf : s.Free c) (hcfg : (f (s.chan c)).config = (s.chan c).config)
    (hs' : (f (s.chan c)).state ≠ .carrierWait ∧ (f (s.chan c)).state ≠ .safe) : (s.modChan c f).Sound N X G := by
  have hm := State.Alone.modChan s c f
  have h' : (s.modChan c f).Sound N (insert c X) G :=
    (h.openUp (h.absent (.inr hs))).own hm.others rfl rfl (h.refs.same hm.others (by rw [hm.own, hn]) rfl) (.inl (.inl rfl))
      (by rw [hm.own, ha])
  rw [← close_closed hc, ← close_opened]
  exact h'.close (by rw [hm.own]; exact hw) (hf.allows rfl (by rw [hm.own, hcfg]) (by rw [hm.own]; exact hs'.2)) (by rw [hm.own]; exact hs'.1)

/-- What no state speaks of changes on a channel. -/
theorem touch (h : s.Sound N X G) {f : Channel → Channel} (hf : (s.chan c).Alike (f (s.chan c)))
    (hn : (f (s.chan c)).naming = (s.chan c).naming) (ha : (f (s.chan c)).attachment = (s.chan c).attachment) :
    (s.modChan c f).Sound N X G := by
  have hm := State.Alone.modChan s c f
  exact h.own hm.others rfl rfl (h.refs.same hm.others (by rw [hm.own, hn]) rfl) (.inr (by rw [hm.own]; exact hf)) (by rw [hm.own, ha])

theorem holdRequest (h : s.Sound N X G) (c : Chan) (b : Bool) : (s.modChan c fun ch => { ch with holdRequest := b }).Sound N X G :=
  h.touch ⟨rfl, rfl, rfl, id⟩ rfl rfl

/-- An IDLE or ARMED channel becomes HELD without a resume point (R74). -/
theorem becomeHeld (h : s.Sound N X G) (hc : c ∉ X) (hst : (s.chan c).state = .idle ∨ (s.chan c).state = .armed) (x : HeldFrom) :
    (s.modChan c (Channel.becomeHeld x none)).Sound N X G := by
  have hne : ∀ y : ChState, y ≠ .idle → y ≠ .armed → (s.chan c).state ≠ y := fun y h1 h2 e => hst.elim (fun e' => h1 (e.symm.trans e')) fun e' => h2 (e.symm.trans e')
  have ha : (s.chan c).active = none := by
    have := (h.whole c hc).1
    unfold Channel.Ok at this
    rcases hst with e | e <;> rw [e] at this <;> exact this.1
  refine h.replace hc (hne _ nofun nofun) (Channel.naming_congr (by simp [Channel.becomeHeld, ha]) (.refl _))
    (by simp [Channel.becomeHeld, Channel.attachment, ha])
    (Channel.whole_held (x := x) (r := none) rfl rfl (by simp [Channel.becomeHeld, ha]) (by simp [Channel.becomeHeld, Channel.attachment, ha]))
    (h.free hc (hne _ nofun nofun) (hne _ nofun nofun) (hne _ nofun nofun)) rfl ⟨nofun, nofun⟩

/-- HOLD on one channel (R70). -/
theorem holdChannel (h : s.Sound N ∅ G) (c : Chan) : (State.holdChannel c s).Sound N ∅ G := by
  have hk := (h.whole c id).1
  unfold Channel.Ok at hk
  unfold State.holdChannel
  split <;> rename_i hst <;> rw [hst] at hk
  · exact h.becomeHeld id (.inl hst) _
  · exact h.becomeHeld id (.inr hst) _
  · split
    exacts [h.holdJob id hk _ _, h.holdJob id hk _ _, h.holdRequest c true]
  · exact h.holdJob id hk.1 _ _
  all_goals exact h

/-- A channel that leaves HELD is open until it goes on (R75). -/
theorem leaveHeld (h : s.Sound N X G) (hst : (s.chan c).state = .held) : (s.modChan c Channel.leaveHeld).Sound N (insert c X) G := by
  have hm := State.Alone.modChan s c Channel.leaveHeld
  exact (h.openUp (h.absent (.inr (by rw [hst]; exact nofun)))).own hm.others rfl rfl (h.refs.same hm.others (by rw [hm.own]; rfl) rfl)
    (.inl (.inl rfl)) (by rw [hm.own]; rfl)

/-- RESUME on one channel (R75). -/
theorem resumeChannel (h : s.Sound N ∅ G) (c : Chan) : (State.resumeChannel c s).Sound N ∅ G := by
  unfold State.resumeChannel
  split
  · next hst =>
    have hk := h.whole c id
    have hf : s.Free c := h.free id (by rw [hst]; exact nofun) (by rw [hst]; exact nofun) (by rw [hst]; exact nofun)
    have hat := hk.attachment (by rw [hst]; exact nofun)
    have hcase : ((s.chan c).hold.bind HoldContext.resume).isSome ↔ (s.chan c).active.isSome := by
      have := hk.1
      unfold Channel.Ok at this
      rw [hst] at this
      exact this.1
    have hl := h.leaveHeld hst
    have hown := (State.Alone.modChan s c Channel.leaveHeld).own
    have hf' : (s.modChan c Channel.leaveHeld).Free c := hf.congr rfl (by rw [hown]; rfl)
    have shut : ∀ {u : State}, u.Sound N (insert c ∅ \ {c}) G → u.Sound N ∅ G := fun {u} hu => by
      rwa [close_opened, close_closed id] at hu
    generalize s.modChan c Channel.leaveHeld = u at hl hown hf' ⊢
    cases hr : (s.chan c).hold.bind HoldContext.resume with
    | none =>
      have ha : (s.chan c).active = none := by simpa [hr] using hcase
      exact shut (hl.decideHead c _ (.inl rfl) hf' (by rw [hown]; exact ha) (by rw [hown]; rfl) rfl)
    | some r =>
      have ha : (s.chan c).active.isSome := hcase.1 (by rw [hr]; rfl)
      obtain ⟨a, ha⟩ := Option.isSome_iff_exists.1 ha
      have ha' : (u.chan c).active = some a := by rw [hown]; exact ha
      have hn' : (u.chan c).attachment = none := by rw [hown]; exact hat
      have hn : a.attach = none := by simpa [Channel.attachment, ha'] using hn'
      have hh' : (u.chan c).hold = none := by rw [hown]; rfl
      have hs' : (u.chan c).state = .playing := by rw [hown]; rfl
      have closed : u.Sound N ∅ G :=
        shut (hl.close (Channel.whole_playing hs' (by rw [ha']; rfl) hh') (hf'.allows rfl rfl (by rw [hs']; exact nofun)) (by rw [hs']; exact nofun))
      cases r with
      | inStep =>
        refine closed.touch (Channel.alike_of_fields rfl rfl rfl (by simp [Channel.runOn]) (fun _ => ?_) (.inl hs')) ?_ ?_
        · simp [Channel.runOn, Channel.attachment, ha', hn]
        · exact Channel.naming_congr (by simp [Channel.runOn, ha']) (.refl _)
        · simp [Channel.runOn, Channel.attachment, ha']
      | inCarrier =>
        dsimp only
        unfold State.resumeCarrier
        split
        · split
          · exact closed.finish id ha' _
          · exact shut (hl.request (.inl rfl) hf' (by rw [ha']; rfl) hn' hh' _)
        · exact closed
      | atEntry => exact shut (hl.enterNext (.inl rfl) hf' ha' hn hh' hs')
  · exact h.holdRequest c false
  · exact h

/-! ### Cycle ends and preemption -/

/-- An attachment is held while PLAYING alone (R86). -/
theorem playing_of_attach (h : s.Sound N X G) (hc : c ∉ X) (ha : (s.chan c).active = some a) (hn : a.attach ≠ none) :
    (s.chan c).state = .playing := by
  by_contra hne
  exact hn (by simpa [Channel.attachment, ha] using (h.whole c hc).attachment hne)

/-- What a cycle end does to one user (R56, R64, R73, R82). -/
theorem cycleEndUser (h : s.Sound N ∅ G) {g : GenId} (hg : (s.chan c).At g) :
    (State.cycleEndUser g c s).Sound N ∅ G := by
  unfold State.cycleEndUser
  cases ha : (s.chan c).active with
  | none => exact h
  | some a =>
    dsimp only
    split
    · next hat =>
      have hst := h.playing_of_attach id ha (by rw [hat]; exact nofun)
      have hm := State.Alone.modChan s c (Channel.attached g .opened)
      have hat' : ∀ d i, ((s.modChan c (Channel.attached g .opened)).chan d).At i ↔ (s.chan d).At i := by
        intro d i
        by_cases e : d = c
        · subst e
          rw [hm.own]
          have hi : (s.chan d).At i ↔ g = i := by
            unfold Channel.At at hg ⊢
            rw [hg, Option.some.injEq]
          rw [hi]
          simp [Channel.At, Channel.attached, Channel.attachment, ha]
        · rw [hm.others d e]
      have hlike : (s.chan c).Alike ((s.chan c).attached g .opened) :=
        ⟨hst.symm, rfl, rfl, fun _ => by simp [Channel.Ok, Channel.attached, ha]⟩
      refine h.change (fun d _ => ?_) Iff.rfl rfl (fun _ => rfl)
        (h.refs.same hm.others (by rw [hm.own]; exact Channel.naming_congr (by simp [Channel.attached, ha]) (.refl _)) rfl)
        (fun d i => (hat' d i).1) fun i hi => ⟨hi, fun d hd => ⟨d, (hat' d i).2 hd⟩⟩
      by_cases e : d = c
      exacts [by subst e; rw [hm.own]; exact hlike, .of_eq (hm.others d e)]
    · next hat =>
      split
      · exact h.holdJob id (by rw [ha]; rfl) _ _
      · split
        · exact h.stepEnd id (h.playing_of_attach id ha (by rw [hat]; exact nofun))
        · exact h
    · exact h

/-- A job is preempted (R68). -/
theorem preempt (h : s.Sound N ∅ G) (ha : (s.chan c).active.isSome) : (s.preempt c).Sound N ∅ G := by
  unfold State.preempt
  split
  · next hst =>
    refine h.touch (Channel.alike_of_fields rfl rfl rfl (by simp) (fun e => ?_) (.inl hst)) ?_ ?_
    · revert e
      unfold Channel.attachment
      cases (s.chan c).active <;> simp [Active.preempt]
    · exact Channel.naming_congr (by cases (s.chan c).active <;> simp [Active.preempt]) (.refl _)
    · unfold Channel.attachment
      cases (s.chan c).active <;> simp [Active.preempt]
  · obtain ⟨a, ha⟩ := Option.isSome_iff_exists.1 ha
    exact h.finish id ha _

end State.Sound

end Sys2Proof.Machine
end

section
/-! PROOFS. That playing, dropping, stopping and leaving keep `State.Sound`, and what goes over several channels in a free order
(chapters 2, 5 and 8). -/

namespace Sys2Proof.Machine

variable {s t u : State} {c d : Chan} {N : Prop} {X Y : Set Chan} {G : Set GenId} {a : Active}

/-- References are given up as the jobs of one channel leave. -/
theorem State.RefsOk.release {f : PatId → Nat} (h : s.RefsOk) (ho : ∀ d, d ≠ c → t.chan d = s.chan d)
    (hn : ∀ q, (s.chan c).naming q = (t.chan c).naming q + f q) (hr : s.Releases t f) : t.RefsOk := by
  intro q
  have hu := State.naming_update ho q
  have hs := h q
  have := hn q
  have hless : ((s.entry q).less (f q)).refs = (s.entry q).refs - f q := by
    cases s.entry q <;> simp [Entry.less, Entry.refs]
  rw [hr.2 q, hless]
  omega

/-- The work of another channel leaves a channel that does not wait for a carrier as it is. -/
theorem Works.other (w : Works c s t) (hd : d ≠ c) (hs : (s.chan d).state ≠ .carrierWait) : t.chan d = s.chan d := by
  rcases w.others d hd with e | ⟨g, e⟩
  exacts [e, e.trans (Channel.granted_of_not_waiting hs)]

/-- The work of another channel leaves a channel its active job. -/
theorem Works.active_isSome (w : Works c s t) (hd : d ≠ c) (ha : (s.chan d).active.isSome) : (t.chan d).active.isSome := by
  rcases w.others d hd with e | ⟨g, e⟩ <;> rw [e]
  · exact ha
  · unfold Channel.granted
    split <;> simpa using ha

/-- A fold is an induction over the elements that are left. -/
theorem foldl_induction {α : Type} {P : List α → State → Prop} {f : State → α → State}
    (hstep : ∀ x ys u, (x :: ys).Nodup → P (x :: ys) u → P ys (f u x)) {xs : List α} (hn : xs.Nodup) (h : P xs s) : P [] (xs.foldl f s) := by
  induction xs generalizing s with
  | nil => exact h
  | cons x xs ih => exact ih hn.of_cons (hstep x xs s hn h)

/-- What is taken in a free order is an induction over the elements that are left. -/
theorem State.forEach_induction {α : Type} {P : List α → State → Prop} {xs : List α} {f : α → State → State} (hn : xs.Nodup)
    (h0 : ∀ ys n, ys.Perm xs → P ys { s with choices := n })
    (hstep : ∀ x ys u, (x :: ys).Nodup → P (x :: ys) u → P ys (f x u)) : P [] (s.forEach xs f) := by
  have hp := s.ordered_perm xs
  refine foldl_induction (f := fun u x => f x u) hstep (hp.nodup_iff.2 hn) ?_
  rcases s.ordered_snd xs with e | e <;> rw [e]
  exacts [h0 _ s.choices hp, h0 _ _ hp]

namespace State.Sound

theorem withOpen (h : s.Sound N X G) (e : ∀ d, d ∈ X ↔ d ∈ Y) : s.Sound N Y G :=
  Set.ext e ▸ h

theorem choices (h : s.Sound N X G) (n : Nat) : ({ s with choices := n } : State).Sound N X G :=
  h.congr (fun _ => rfl) rfl (fun _ => rfl) Iff.rfl

/-- Reports are no part of what is kept. -/
theorem report (h : s.Sound N X G) (p : Producer) (kind : ReportKind) (source : Option (Fin 8)) (job : Half) (x y : Byte) :
    (s.report p kind source job x y).Sound N X G :=
  h.congr (fun _ => rfl) rfl (fun _ => rfl) Iff.rfl

/-! ### Queued jobs come and go -/

/-- A channel may change its queue where its state does not speak of it, or where it is open. -/
def FreeQueue (X : Set Chan) (s : State) (c : Chan) : Prop :=
  c ∈ X ∨ (s.chan c).state = .playing ∨ (s.chan c).state = .carrierWait ∨ (s.chan c).state = .held

theorem FreeQueue.like (h : FreeQueue X s c) {ch : Channel} (hs : ch.state = (s.chan c).state) (hh : ch.hold = (s.chan c).hold)
    (hc : ch.config = (s.chan c).config) (ha : ch.active = (s.chan c).active) : c ∈ X ∨ (s.chan c).Alike ch := by
  refine h.imp_right fun hq => Channel.alike_of_fields hs hh hc (by rw [ha]) (fun e => ?_) ?_
  · unfold Channel.attachment at e ⊢
    rwa [ha]
  · rcases hq with e | e | e
    exacts [.inl e, .inr (.inl e), .inr (.inr (.inl e))]

/-- A job joins a queue (R26, R29). -/
theorem enqueue (h : s.Sound N X G) {j : Job} (hp : (s.entry j.pattern).isReady = true) (hq : FreeQueue X s c) :
    (s.enqueue c j).Sound N X G := by
  have ho : ∀ d, d ≠ c → (s.enqueue c j).chan d = s.chan d := fun d e => by simp [e]
  have hc : (s.enqueue c j).chan c = { s.chan c with queue := insertJob j (s.chan c).queue } := by simp
  refine h.own ho rfl rfl (h.refs.add ho (fun q => ?_) hp fun q => State.entry_addRef _ j.pattern q) (hc ▸ hq.like rfl rfl rfl rfl)
    (by rw [hc]; rfl)
  rw [hc]
  exact Channel.naming_queue_cons (ch := { s.chan c with queue := insertJob j (s.chan c).queue }) (insertJob_perm j _) q

/-- The job that a number names is taken from a queue. -/
theorem perm_dropFromQueue {q : List Job} {j : Job} (h : q.find? (fun x => x.number == j.number) = some j) :
    q.Perm (j :: dropFromQueue q j.number) := by
  induction q with
  | nil => cases h
  | cons x q ih =>
    unfold dropFromQueue
    by_cases e : x.number = j.number
    · rw [List.find?_cons_of_pos (by simpa using e)] at h
      cases h
      simp
    · rw [List.find?_cons_of_neg (by simpa using e)] at h
      rw [List.eraseP_cons_of_neg (by simpa using e)]
      exact ((ih h).cons x).trans (.swap _ _ _)

/-- A queued job is dropped (R40). -/
theorem dropJob (h : s.Sound N X G) {j : Job} (hj : (s.chan c).queue.find? (fun x => x.number == j.number) = some j)
    (hc : c ∈ X ∨ (s.chan c).Alike ((s.chan c).withoutJob j.number)) (r : DropReason) : (s.dropJob c j r).Sound N X G := by
  have ha := s.alone_dropJob c j r
  refine h.own ha.others rfl rfl (h.refs.drop (p := j.pattern) ha.others (fun q => ?_) fun q => s.entry_dropRef j.pattern q)
    (by rw [ha.own]; exact hc) (by rw [ha.own]; rfl)
  rw [ha.own]
  exact Channel.naming_queue_cons (perm_dropFromQueue hj) q

/-- All queued jobs are dropped (R40). -/
theorem dropAll (h : s.Sound N X G) (hq : FreeQueue X s c ∨ (s.chan c).queue = []) (r : DropReason) : (s.dropAll c r).Sound N X G := by
  rcases hq with hq | hq
  · obtain ⟨⟨armed, hc⟩, ho, hcarb, -, -⟩ := s.dropAll_eq c r
    have hr : s.Releases (s.dropAll c r) fun q => ((s.chan c).queue.map Job.pattern).count q :=
      (s.releases_dropRefs _).congr (s.ptab_dropAll c r) fun _ => rfl
    refine h.own ho hcarb (works_dropAll c s r).lease (h.refs.release ho (fun q => ?_) hr) (hc ▸ hq.like rfl rfl rfl rfl) (by rw [hc]; rfl)
    rw [hc]
    simp only [Channel.naming, List.countP_nil, Nat.add_zero, List.count_eq_countP, List.countP_map]
    refine congrArg _ (List.countP_congr fun j _ => ?_)
    simp
  · unfold State.dropAll
    rw [hq]
    exact h

/-- The head decision of a closed channel that has lost its armed head, or of one whose queue has changed (R23). -/
theorem headDecision (h : s.Sound N X G) (hc : c ∈ X) (hf : s.Free c) (ha : (s.chan c).active = none) (hh : (s.chan c).hold = none) :
    (s.headDecision c).Sound N (X \ {c}) G :=
  h.decideHead c _ hc hf ha hh rfl

/-- What an ARMED channel holds. -/
theorem armed_inv (h : s.Sound N X G) (hc : c ∉ X) (hst : (s.chan c).state = .armed) : (s.chan c).active = none ∧ (s.chan c).hold = none ∧
    s.Free c ∧ ∃ j rest, (s.chan c).queue = j :: rest ∧ j.start ≠ .now ∧ (s.chan c).armed.map ArmedHead.number = some j.number := by
  have hk := (h.whole c hc).1
  unfold Channel.Ok at hk
  rw [hst] at hk
  exact ⟨hk.1, (h.whole c hc).hold (by rw [hst]; exact nofun),
    h.free hc (by rw [hst]; exact nofun) (by rw [hst]; exact nofun) (by rw [hst]; exact nofun), hk.2⟩

/-- A channel with a queued job is ARMED or has an active job or is HELD. -/
theorem state_of_queue (h : s.Sound N X G) (hc : c ∉ X) (hq : (s.chan c).queue ≠ []) :
    (s.chan c).state = .armed ∨ FreeQueue X s c := by
  have hk := (h.whole c hc).1
  unfold Channel.Ok at hk
  unfold FreeQueue
  cases e : (s.chan c).state <;> rw [e] at hk <;> simp_all

/-- A queued job is dropped, with the head decision where the armed head is lost by it (R40). -/
theorem dropAndDecide (h : s.Sound N ∅ G) {j : Job} (hj : (s.chan c).queue.find? (fun x => x.number == j.number) = some j) (r : DropReason) :
    (s.dropAndDecide c j r).Sound N ∅ G := by
  have hown := (s.alone_dropJob c j r).own
  have hne : (s.chan c).queue ≠ [] := fun e => by rw [e] at hj; cases hj
  unfold State.dropAndDecide
  dsimp only
  rcases h.state_of_queue id hne with hst | hq
  · obtain ⟨ha, hh, hf, i, rest, hqueue, hnow, harm⟩ := h.armed_inv id hst
    have ho : (s.dropJob c j r).Sound N (insert c ∅) G :=
      (h.openUp (h.absent (.inr (by rw [hst]; exact nofun)))).dropJob hj (.inl (.inl rfl)) r
    have hf' := hf.works (works_dropJob c s j r)
    rw [← close_closed (X := ∅) (c := c) id, ← close_opened]
    split
    · exact ho.headDecision (.inl rfl) hf' (by rw [hown]; exact ha) (by rw [hown]; exact hh)
    · next hl =>
      refine ho.close ?_ (hf'.allows rfl rfl (by rw [hown]; exact fun e => by cases hst.symm.trans e))
        (by rw [hown]; exact fun e => by cases hst.symm.trans e)
      -- another job is the armed head: it stays the head of the queue
      rw [hown] at hl ⊢
      obtain ⟨m, hm, hmn⟩ := Option.map_eq_some_iff.1 harm
      have hnum : m.number ≠ j.number := fun e => hl (by simp [Channel.headLost, Channel.withoutJob, hst, hm, e])
      refine ⟨?_, by simp [Channel.withoutJob, hh, hst]⟩
      have hi : ¬(i.number == j.number) = true := by simpa [← hmn] using hnum
      simp only [Channel.Ok, Channel.withoutJob, hst, ha, hqueue, dropFromQueue, hm, Option.filter_some,
        true_and]
      refine ⟨i, _, List.eraseP_cons_of_neg (p := fun x : Job => x.number == j.number) hi, hnow, ?_⟩
      simpa [hmn] using hnum
  · have hlost : ((s.dropJob c j r).chan c).headLost = false := by
      rw [hown]
      rcases hq with e | e | e | e
      · exact absurd e id
      all_goals simp [Channel.headLost, Channel.withoutJob, e]
    rw [hlost, if_neg Bool.false_ne_true]
    exact h.dropJob hj (hq.like rfl rfl rfl rfl) r

/-- The armed head's window runs out (R36). -/
theorem expireWindow (h : s.Sound N ∅ G) (c : Chan) : (s.expireWindow c).Sound N ∅ G := by
  unfold State.expireWindow
  split
  · exact h
  · next hq => exact h.dropAndDecide (by rw [hq]; simp) _

/-- The armed head of a channel starts (R31, R33, R34). -/
theorem startHead (h : s.Sound N ∅ G) (hst : (s.chan c).state = .armed) : (s.startHead c).Sound N ∅ G := by
  obtain ⟨ha, hh, hf, j, rest, hq, -⟩ := h.armed_inv id hst
  have ho := h.openUp (h.absent (.inr (by rw [hst]; exact nofun)))
  unfold State.startHead
  simp only [hq]
  have hs := ho.starts (c := c) (.inl rfl) hf ha hh hq
  rw [close_opened, close_closed id] at hs
  cases hr : (s.startJob c j rest).enterStep c with
  | mk t o =>
    rw [hr] at hs
    cases o with
    | none => exact hs.1 rfl
    | some o =>
      obtain ⟨ht, hf', ha', hh', hq'⟩ := hs.2 o rfl
      have := ht.decideHead c rest (.inl rfl) hf' ha' hh' hq'
      rwa [close_opened, close_closed id] at this

/-! ### PLAY and STOP -/

/-- A PLAY is accepted (R29, R30). -/
theorem acceptPlay (h : s.Sound N ∅ G) {j : Job} (hr : s.playRefusal c j.pattern = none) (n : Half) :
    (s.acceptPlay c { j with number := n }).Sound N ∅ G := by
  obtain ⟨hoff, hfault, hsafe, hready⟩ : (s.chan c).state ≠ .off ∧ (s.chan c).state ≠ .fault ∧ (s.chan c).state ≠ .safe ∧
      (s.entry j.pattern).isReady = true := by
    unfold State.playRefusal at hr
    split at hr
    · cases hr
    · next h1 =>
      split at hr
      · cases hr
      · next h2 =>
        split at hr
        · cases hr
        · next h3 => exact ⟨fun e => h1 (.inl e), fun e => h1 (.inr e), h2, by simpa using h3⟩
  have hf := h.free id hoff hsafe hfault
  have hk := h.whole c id
  have hown : (s.enqueue c { j with number := n }).chan c = { s.chan c with queue := insertJob { j with number := n } (s.chan c).queue } := by
    simp
  unfold State.acceptPlay
  by_cases hs : (s.chan c).state = .idle ∨ (s.chan c).state = .armed
  · have hne : (s.chan c).state ≠ .carrierWait := by rcases hs with e | e <;> rw [e] <;> exact nofun
    have ho : (s.enqueue c { j with number := n }).Sound N (insert c ∅) G :=
      (h.openUp (h.absent (.inr hne))).enqueue (j := { j with number := n }) hready (.inl (.inl rfl))
    have ha : (s.chan c).active = none := by
      have := hk.1
      unfold Channel.Ok at this
      rcases hs with e | e <;> rw [e] at this <;> exact this.1
    have hd := ho.headDecision (.inl rfl) (hf.congr rfl (by rw [hown])) (by rw [hown]; exact ha)
      (by rw [hown]; exact hk.hold (by rcases hs with e | e <;> rw [e] <;> exact nofun))
    rw [close_opened, close_closed id] at hd
    have e : (s.enqueue c { j with number := n }).playEffect c ((s.chan c).preemptedBy { j with number := n })
        = (s.enqueue c { j with number := n }).headDecision c := by
      unfold State.playEffect
      rw [hown]
      rcases hs with e | e <;> simp only [e]
    rw [e]
    exact hd
  · have hq : FreeQueue ∅ s c := by
      unfold FreeQueue
      cases e : (s.chan c).state <;> simp_all
    have ho : (s.enqueue c { j with number := n }).Sound N ∅ G := h.enqueue (j := { j with number := n }) hready hq
    unfold State.playEffect
    rw [hown]
    split
    · next e => exact absurd (.inl e) hs
    · next e => exact absurd (.inr e) hs
    all_goals try exact ho
    all_goals
      split
      · next hp =>
        refine ho.preempt ?_
        rw [hown]
        unfold Channel.preemptedBy at hp
        split at hp
        · next ha => rw [ha]; rfl
        · cases hp
      · exact ho

end State.Sound

end Sys2Proof.Machine
end

section
/-! PROOFS. That stopping, leaving and the resets keep `State.Sound`, and that every step keeps it and leaves the lines and ATTN_N as the state
says: the statement on the channels, the wait list, the users, the lease and the reference counts. -/

namespace Sys2Proof.Machine

variable {s t u : State} {c d : Chan} {N : Prop} {X : Set Chan} {G : Set GenId} {a : Active}

namespace State.Sound

/-! ### STOP -/

/-- STOP ends a job at once, then flushes, and the channel goes on (R42, R66). -/
theorem stopAtOnce (h : s.Sound N X G) (hf : s.Free c) (ha : (s.chan c).active = some a) (hh : (s.chan c).hold.isSome ↔ (s.chan c).state = .held)
    (o : JobOutcome) (flush : Bool) :
    ((if flush then (s.endJob c o).dropAll c .flushed else s.endJob c o).afterEnd c).Sound N (X \ {c}) G := by
  have hown := State.chan_endJob_same o ha
  have he := h.endJob ha o
  have hf' := hf.works (works_endJob c s o)
  rw [← close_opened]
  cases flush
  · exact he.afterEnd (.inl rfl) hf' (by rw [hown]; rfl) (by rw [hown]; exact hh)
  · obtain ⟨⟨armed, hc⟩, -⟩ := (s.endJob c o).dropAll_eq c .flushed
    exact (he.dropAll (.inl (.inl (.inl rfl))) _).afterEnd (.inl rfl) (hf'.works (works_dropAll c _ _)) (by rw [hc, hown]; rfl)
      (by rw [hc, hown]; exact hh)

/-- STOP on a closed channel whose job it does not end at once (R42, R63). -/
theorem stopLater (h : s.Sound N X G) (hc : c ∉ X) (w : StopWhen) (flush : Bool) :
    (let t := if (s.chan c).state = .playing then s.modActive c fun a => { a with stop := some (strengthen a.stop w) } else s
      let u := if flush then t.dropAll c .flushed else t
      if flush && decide ((s.chan c).state = .armed) then u.headDecision c else u).Sound N X G := by
  dsimp only
  by_cases hp : (s.chan c).state = .playing
  · have hm := State.Alone.modActive s c fun a => { a with stop := some (strengthen a.stop w) }
    have hu : (s.modActive c fun a => { a with stop := some (strengthen a.stop w) }).Sound N X G := by
      refine h.touch (Channel.alike_of_fields rfl rfl rfl (by simp) (fun e => ?_) (.inl hp)) ?_ ?_
      · revert e
        unfold Channel.attachment
        cases (s.chan c).active <;> simp
      · exact Channel.naming_congr (by cases (s.chan c).active <;> simp) (.refl _)
      · unfold Channel.attachment
        cases (s.chan c).active <;> simp
    simp only [hp, if_true, reduceCtorEq, decide_false, Bool.and_false, Bool.false_eq_true, if_false]
    cases flush
    · exact hu
    · exact hu.dropAll (.inl (.inr (.inl (by rw [hm.own]; exact hp)))) _
  · rw [if_neg hp]
    cases flush
    · exact h
    · by_cases hst : (s.chan c).state = .armed
      · simp only [hst, decide_true, Bool.and_self, if_true]
        obtain ⟨ha, hh, hf, -⟩ := h.armed_inv hc hst
        obtain ⟨⟨armed, hown⟩, -⟩ := s.dropAll_eq c .flushed
        have ho := (h.openUp (h.absent (.inr (by rw [hst]; exact nofun)))).dropAll (.inl (.inl (.inl rfl))) .flushed
        have := ho.headDecision (.inl rfl) (hf.works (works_dropAll c s _)) (by rw [hown]; exact ha) (by rw [hown]; exact hh)
        rwa [close_opened, close_closed hc] at this
      · simp only [hst, decide_false, Bool.and_false, Bool.false_eq_true, if_false, if_true]
        refine h.dropAll ?_ _
        by_cases hq : (s.chan c).queue = []
        · exact .inr hq
        · exact .inl ((h.state_of_queue hc hq).resolve_left hst)

/-- STOP on one channel, waiting for a carrier and open since it gave up its place, or as the STOP found it (R42, R62). -/
theorem stopChannel {before : Chan → Channel} (h : s.Sound N X G)
    (hw : (before c).state = .carrierWait → (before c).active.isSome ∧ s.Free c ∧ (s.chan c).active.isSome ∧
      ((s.chan c).hold.isSome ↔ (s.chan c).state = .held))
    (hs : (before c).state ≠ .carrierWait → c ∉ X ∧ s.chan c = before c) (w : StopWhen) (flush : Bool) :
    (State.stopChannel before w flush c s).Sound N (X \ {c}) G := by
  unfold State.stopChannel State.stopJob State.afterStop
  by_cases hcw : (before c).state = .carrierWait
  · obtain ⟨hb, hf, ha, hh⟩ := hw hcw
    obtain ⟨a, ha⟩ := Option.isSome_iff_exists.1 ha
    obtain ⟨b, hb⟩ := Option.isSome_iff_exists.1 hb
    have hi : (before c).state.ignoresStop = false := by rw [hcw]; rfl
    have ho : (before c).stopsAtOnce w = true := by simp [Channel.stopsAtOnce, hb, hcw]
    simp only [hi, ho, Bool.false_eq_true, if_false, if_true]
    exact h.stopAtOnce hf ha hh _ flush
  · obtain ⟨hc, e⟩ := hs hcw
    rw [← e]
    cases hi : (s.chan c).state.ignoresStop with
    | true =>
      rw [if_pos rfl, close_closed hc]
      exact h
    | false =>
      cases ho : (s.chan c).stopsAtOnce w with
      | true =>
        obtain ⟨a, ha⟩ : ∃ a, (s.chan c).active = some a := by
          unfold Channel.stopsAtOnce at ho
          cases ha : (s.chan c).active with
          | none => rw [ha] at ho; cases ho
          | some a => exact ⟨a, rfl⟩
        simp only [Bool.false_eq_true, if_false, if_true]
        exact h.stopAtOnce (h.free_of_active hc (by rw [ha]; rfl)) ha (h.whole c hc).2 _ flush
      | false =>
        simp only [Bool.false_eq_true, if_false]
        rw [close_closed hc]
        exact h.stopLater hc w flush

/-- The named channels in CARRIER_WAIT give up their places together. -/
theorem withdraw (h : s.Sound N X G) (cs : List Chan) : (cs.foldl State.leaveWaitList s).Sound N (X ∪ {c | c ∈ cs}) G := by
  induction cs generalizing s X with
  | nil => simpa using h
  | cons c cs ih =>
    refine (ih (h.leaveWaitList c)).withOpen fun d => ?_
    simp only [Set.mem_union, Set.mem_ofPred_eq, List.mem_cons, Set.mem_insert_iff]
    tauto

/-! ### Leaving for OFF, SAFE or FAULT -/

/-- A channel leaves (R60, R104, R107, R143). -/
theorem evict (h : s.Sound N X G) (hx : c ∈ X ∨ (s.chan c).state ≠ .carrierWait) {x : ChState} (hs : x = .off ∨ x = .safe ∨ x = .fault)
    (hl : x = .safe → s.lease.state = .expired) (o : JobOutcome) (r : DropReason) :
    (s.evict c o r x).Sound N (X \ {c}) G := by
  have he : (s.endJob c o).Sound N (insert c X) G ∧ ((s.endJob c o).chan c).active = none := by
    cases ha : (s.chan c).active with
    | none =>
      have e : s.endJob c o = s := by simp only [State.endJob, ha]
      rw [e]
      exact ⟨h.openUp (h.absent hx), ha⟩
    | some a => exact ⟨h.endJob ha o, by rw [State.chan_endJob_same o ha]; rfl⟩
  obtain ⟨⟨armed, hc⟩, -⟩ := (s.endJob c o).dropAll_eq c r
  have hd := he.1.dropAll (.inl (.inl (.inl rfl))) r
  have hw : Works c s ((s.endJob c o).dropAll c r) := (works_endJob c s o).trans (works_dropAll c _ r)
  have hm := State.Alone.modChan ((s.endJob c o).dropAll c r) c fun ch => Channel.empty x ch.config
  have ha' : (((s.endJob c o).dropAll c r).chan c).active = none := by rw [hc]; exact he.2
  have hq' : (((s.endJob c o).dropAll c r).chan c).queue = [] := by rw [hc]
  unfold State.evict
  rw [← close_opened]
  generalize (s.endJob c o).dropAll c r = v at *
  have hv := hd.own hm.others rfl rfl (hd.refs.same hm.others (by
    rw [hm.own]
    exact Channel.naming_congr (by rw [ha']; rfl) (by rw [hq']; exact .refl _)) rfl) (.inl (.inl rfl)) (by
    rw [hm.own, Channel.attachment_of_inactive ha']
    rfl)
  have hlease : v.lease = s.lease := hw.lease
  refine hv.close ?_ ?_ ?_ <;> rw [hm.own]
  · exact Channel.whole_resting (by rcases hs with e | e | e <;> simp [Channel.empty, e]) rfl rfl rfl
  · change v.lease.Allows _
    rw [hlease]
    exact ⟨hl, fun _ _ => hs⟩
  · rcases hs with e | e | e <;> simp [Channel.empty, e]

end State.Sound

end Sys2Proof.Machine
end

section
/-! PROOFS. That what reaches several channels keeps `State.Sound`, and that every step keeps it and leaves the lines and ATTN_N as the state
says: the statement on the channels, the wait list, the users, the lease and the reference counts. -/

namespace Sys2Proof.Machine

variable {s t u : State} {c d : Chan} {N : Prop} {X : Set Chan} {G G' : Set GenId} {a : Active}

/-- A generator that has no user has none after another generator has lost its last user. -/
theorem State.not_at_lastUserLeft {g i : GenId} (h : ∀ c, ¬(s.chan c).At i) (hne : i ≠ g) (c : Chan) : ¬((s.lastUserLeft g).chan c).At i := by
  have granted : ∀ ch : Channel, ¬ch.At i → ¬(ch.granted g).At i := by
    intro ch hc
    unfold Channel.granted
    split
    · cases ha : ch.active <;> simp [Channel.At, Channel.attachment, Ne.symm hne]
    · exact hc
  unfold State.lastUserLeft State.releaseGen State.grant
  repeat' split
  all_goals try exact h c
  rw [State.chan_foldl_granted]
  split
  exacts [granted _ (h c), h c]

/-- The lease is no part of what shutting a gate reads or writes. -/
theorem foldl_shutGate_lease (cs : List Chan) (s : State) (l : LeaseTimer) :
    cs.foldl State.shutGate { s with lease := l } = { cs.foldl State.shutGate s with lease := l } := by
  induction cs generalizing s with
  | nil => rfl
  | cons c cs ih => exact ih (s.shutGate c)

namespace State.Sound

/-! ### Several channels leave -/

theorem shutGate (h : s.Sound N X Set.univ) (c : Chan) : (s.shutGate c).Sound N (insert c X) Set.univ :=
  (h.leaveWaitList c).unattach fun g hg => absurd (Set.mem_univ g) hg

theorem shutGates (h : s.Sound N X Set.univ) (cs : List Chan) : (cs.foldl State.shutGate s).Sound N (X ∪ {c | c ∈ cs}) Set.univ := by
  induction cs generalizing s X with
  | nil => simpa using h
  | cons c cs ih =>
    refine (ih (h.shutGate c)).withOpen fun d => ?_
    simp only [Set.mem_union, Set.mem_ofPred_eq, List.mem_cons, Set.mem_insert_iff]
    tauto

/-- The gates of several channels close at one moment, under a lease that allows the others (R93). -/
theorem shutAll (h : s.Sound N ∅ ∅) (cs : List Chan) {l : LeaseTimer} (hl : ∀ c, c ∉ cs → l.Allows (s.chan c)) :
    (cs.foldl State.shutGate { s with lease := l }).Sound N {c | c ∈ cs} {g | g ∈ ({ s with lease := l } : State).deserted cs} := by
  have hs : (cs.foldl State.shutGate s).Sound N {c | c ∈ cs} Set.univ := by
    have := (h.withBusy (G' := Set.univ) fun _ g hg => absurd (Set.mem_univ g) hg).shutGates cs
    rwa [Set.empty_union] at this
  have he := foldl_shutGate_lease cs s l
  have hch : ∀ d, d ∉ cs → (cs.foldl State.shutGate { s with lease := l }).chan d = s.chan d := fun d hd => by
    rw [State.chan_foldl_shutGate, if_neg hd]
    rfl
  have hlease : (cs.foldl State.shutGate { s with lease := l }).lease = l := by rw [he]
  have hlike : (cs.foldl State.shutGate { s with lease := l }).Sound N {c | c ∈ cs} Set.univ := by
    rw [he]
    refine ⟨hs.whole, fun c hc => ?_, hs.waiting, hs.once, hs.refs, hs.idle, fun _ g hg => absurd (Set.mem_univ g) hg, hs.places⟩
    rw [← he, hlease, hch c hc]
    exact hl c hc
  refine hlike.withBusy fun n g hg e => ?_
  rw [State.gen_foldl_shutGate] at e
  obtain ⟨c, hc⟩ := h.busy n g id e
  by_contra hne
  -- every user is among the channels, so that the generator is deserted
  refine hg ((State.mem_deserted _ cs g).2 ?_)
  have hall : ∀ d ∈ ({ s with lease := l } : State).users g, decide (d ∈ cs) = true := by
    intro d hd
    by_contra hnot
    have hnot : d ∉ cs := by simpa using hnot
    exact hne ⟨d, by rw [hch d hnot]; exact State.mem_users.1 hd⟩
  exact ⟨⟨c, State.mem_users.2 hc, hall c (State.mem_users.2 hc)⟩, hall⟩

/-- The generators that have lost their last user drain, are FREE or are granted (R88, R90, R93). -/
theorem forceClose {cs : List Chan} (h : (cs.foldl State.shutGate s).Sound N X {g | g ∈ s.deserted cs}) : (s.forceClose cs).Sound N X ∅ := by
  have hnone : ∀ g ∈ s.deserted cs, ∀ c, ¬((cs.foldl State.shutGate s).chan c).At g := by
    intro g hg c hc
    have := (List.mem_filter.1 hg).2
    simp only [Bool.and_eq_true, List.isEmpty_iff] at this
    exact State.users_eq_nil.1 this.2 c hc
  have hn : (s.deserted cs).Nodup := (List.nodup_finRange 3).filter _
  have hs := State.forEach_induction (P := fun gs u => u.Sound N X {g | g ∈ gs} ∧ ∀ g ∈ gs, ∀ c, ¬(u.chan c).At g)
    (f := fun g (t : State) => t.lastUserLeft g) hn
    (fun gs n hp => ⟨(h.choices n).withBusy fun m g hg => (h.choices n).busy m g fun k => hg (hp.mem_iff.2 k),
      fun g hg => hnone g (hp.mem_iff.1 hg)⟩)
    fun g gs u hn hu => ⟨?_, fun i hi c => ?_⟩
  · exact hs.1.withBusy fun n g _ => hs.1.busy n g List.not_mem_nil
  · have hk := hu.1.lastUserLeft (g := g) fun _ => hu.2 g List.mem_cons_self
    exact hk.withBusy fun n i hi => hk.busy n i fun m => (List.mem_cons.1 m.1).elim m.2 hi
  · refine State.not_at_lastUserLeft (hu.2 i (List.mem_cons_of_mem g hi)) ?_ c
    rintro rfl
    exact (List.nodup_cons.1 hn).1 hi

/-- Several channels leave in one event, under a lease that allows the others (R93, R104, R143). -/
theorem evictAll (h : s.Sound N ∅ ∅) {cs : List Chan} (hn : cs.Nodup) {l : LeaseTimer} (hl : ∀ c, c ∉ cs → l.Allows (s.chan c))
    {x : ChState} (hx : x = .off ∨ x = .safe ∨ x = .fault) (he : x = .safe → l.state = .expired) (o : JobOutcome) (r : DropReason) :
    (({ s with lease := l } : State).evictAll cs o r x).Sound N ∅ ∅ := by
  have hc := (h.shutAll cs hl).forceClose
  have hlease : (({ s with lease := l } : State).forceClose cs).lease = l := (effects_forceClose _ cs).lease
  have hs := State.forEach_induction (P := fun cs u => u.Sound N {c | c ∈ cs} ∅ ∧ u.lease = l)
    (f := fun c (t : State) => t.evict c o r x) hn (fun ys n hp => ⟨?_, hlease⟩) fun c ys u hn hu => ⟨?_, ?_⟩
  · exact hs.1.withOpen fun d => ⟨fun m => absurd m List.not_mem_nil, False.elim⟩
  · exact (hc.choices n).withOpen fun d => hp.mem_iff.symm
  · refine (hu.1.evict (c := c) (.inl List.mem_cons_self) hx (fun e => by rw [hu.2]; exact he e) o r).withOpen fun d => ⟨?_, fun hd => ?_⟩
    · rintro ⟨hd, hne⟩
      exact (List.mem_cons.1 hd).resolve_left hne
    · exact ⟨List.mem_cons_of_mem c hd, fun e => (List.nodup_cons.1 hn).1 (e ▸ hd)⟩
  · exact (works_evict c u o r x).lease.trans hu.2

end State.Sound

end Sys2Proof.Machine
end

section
/-! PROOFS. That every part of a step keeps `State.Sound`, and the statement on the channels, the wait list, the generators' users, the lease, the
reference counts, the lines and ATTN_N. -/

namespace Sys2Proof.Machine

variable {s t u : State} {c d : Chan} {N : Prop} {X : Set Chan} {G : Set GenId} {a : Active}

namespace State.Sound

/-! ### Channels without a job -/

/-- Channels that have no job go to other states in which they have none. -/
theorem rest (h : s.Sound N ∅ ∅)
    (hc : ∀ c, t.chan c = s.chan c ∨ ((s.chan c).active = none ∧ (s.chan c).queue = [] ∧ (t.chan c).active = none ∧ (t.chan c).queue = [] ∧
      (t.chan c).hold = none ∧ ((t.chan c).state = .off ∨ (t.chan c).state = .idle ∨ (t.chan c).state = .safe ∨ (t.chan c).state = .fault)))
    (hl : ∀ c, t.lease.Allows (t.chan c)) (hcarb : t.carb = s.carb) (hp : t.ptab = s.ptab) : t.Sound N ∅ ∅ := by
  have hcw : ∀ c, (s.chan c).active = none → (s.chan c).state ≠ .carrierWait := fun c ha e => by
    have := (h.whole c id).1
    unfold Channel.Ok at this
    rw [e, ha] at this
    cases this.1
  have hat : ∀ c i, (t.chan c).At i ↔ (s.chan c).At i := by
    intro c i
    rcases hc c with e | ⟨ha, -, ha', -⟩
    · rw [e]
    · exact iff_of_false (Channel.not_at (Channel.attachment_of_inactive ha') i) (Channel.not_at (Channel.attachment_of_inactive ha) i)
  refine ⟨fun c _ => ?_, fun c _ => hl c, fun w m => ⟨id, ?_⟩, hcarb ▸ h.once, h.refs.congr (fun c => ?_) fun p => by rw [State.entry_congr hp],
    fun n g e c => ?_, fun n g m e => ?_, fun n c _ e => ?_⟩
  · rcases hc c with e | ⟨-, -, ha, hq, hh, hs⟩
    exacts [e ▸ h.whole c id, Channel.whole_resting hs ha hq hh]
  · obtain ⟨-, hs⟩ := h.waiting w (hcarb ▸ m)
    rcases hc w.chan with e | ⟨ha, -⟩
    exacts [by rw [e, hs], absurd hs (hcw _ ha)]
  · rcases hc c with e | ⟨ha, hq, ha', hq', -⟩
    exacts [by rw [e], Channel.naming_congr (by rw [ha, ha']) (by rw [hq, hq'])]
  · rw [hat]
    exact h.idle n g (State.gen_congr hcarb g ▸ e) c
  · obtain ⟨c, a⟩ := h.busy n g m (State.gen_congr hcarb g ▸ e)
    exact ⟨c, (hat c g).2 a⟩
  · rw [hcarb]
    rcases hc c with e' | ⟨-, -, -, -, -, hs⟩
    · exact h.places n c id (e' ▸ e)
    · rw [e] at hs
      simp at hs

/-- A part without jobs, with its generators FREE and nobody waiting. -/
theorem of_nothing (hc : ∀ c, ∃ x, (x = .off ∨ x = .idle) ∧ s.chan c = Channel.empty x (s.chan c).config) (hw : s.carb.waitList = [])
    (hg : ∀ g, s.gen g = .free) (hr : ∀ p, (s.entry p).refs = 0) (hl : s.lease.state ≠ .expired) : s.Sound N ∅ ∅ := by
  have hn : ∀ c, (s.chan c).attachment = none ∧ (s.chan c).Whole ∧ (s.chan c).state ≠ .safe ∧ (s.chan c).state ≠ .carrierWait ∧
      ∀ p, (s.chan c).naming p = 0 := by
    intro c
    obtain ⟨x, hx, e⟩ := hc c
    rw [e]
    refine ⟨rfl, Channel.whole_resting (hx.imp_right .inl) rfl rfl rfl, ?_, ?_, Channel.naming_of_nobody rfl rfl⟩
    all_goals rcases hx with rfl | rfl <;> exact nofun
  refine ⟨fun c _ => (hn c).2.1, fun c _ => ⟨fun e => absurd e (hn c).2.2.1, fun e => absurd e hl⟩, fun w m => ?_, ?_, fun p => ?_,
    fun _ g _ c => Channel.not_at (hn c).1 g, fun _ g _ e => ?_, fun _ c _ e => absurd e (hn c).2.2.2.1⟩
  · rw [hw] at m
    cases m
  · rw [hw]
    exact List.nodup_nil
  · rw [hr, State.naming_eq_sum]
    exact (Finset.sum_eq_zero fun c _ => (hn c).2.2.2.2 p).symm
  · rw [hg] at e
    cases e

theorem hardReset (x : BitVec 4) (r : BitVec 2) (z : BitVec 8) (s : State) : (s.hardReset x r z).Sound N ∅ ∅ :=
  of_nothing (fun c => ⟨.off, .inl rfl, by simp [Channel.empty]⟩) rfl (fun g => by simp) (fun p => by simp [Entry.refs]) nofun

theorem resetOutputs (s : State) : s.resetOutputs.Sound N ∅ ∅ := by
  refine of_nothing (fun c => ⟨if (s.chan c).state = .off then .off else .idle, by split <;> simp, ?_⟩) (by simp) (fun g => by simp) (fun p => ?_) ?_
  · simp [Channel.empty]
  · rw [State.entry_resetOutputs]
    cases s.entry p <;> rfl
  · rw [State.resetOutputs_lease]
    unfold LeaseTimer.afterOutputsReset
    cases hl : s.lease.state <;> simp [LeaseTimer.restarted, hl]

/-! ### Commands -/

/-- An entry is replaced that no job names. -/
theorem setEntry (h : s.Sound N ∅ ∅) {p : PatId} {e : Entry} (hp : (s.entry p).refs = 0) (he : e.refs = 0)
    (hc : ∀ c, t.chan c = s.chan c) (hcarb : t.carb = s.carb) (hl : t.lease = s.lease) (ht : ∀ q, t.entry q = (s.setEntry p e).entry q) :
    t.Sound N ∅ ∅ := by
  refine h.congr hc hcarb (fun q => ?_) (by rw [hl])
  rw [ht, State.entry_setEntry]
  split
  · next e' => rw [he, e', hp]
  · rfl

theorem setClass (h : s.Sound N ∅ ∅) (k : Cls) (x : Option CarrierClass) : (s.setClass k x).Sound N ∅ ∅ :=
  h.keep (fun _ _ => .refl _) Iff.rfl rfl (fun _ => rfl) (h.refs.congr (fun _ => rfl) fun _ => rfl) fun _ => rfl

/-- The jobs that wait for a class end with it (R78). -/
theorem clearClass (h : s.Sound N ∅ ∅) (k : Cls) :
    ((s.waitersFor k).foldl (fun t c => t.finishJob c .noCarrierClass) (s.setClass k none)).Sound N ∅ ∅ := by
  have hn : (s.waitersFor k).Nodup := h.once.sublist (List.filter_sublist.map _)
  refine (foldl_induction (P := fun cs u => u.Sound N ∅ ∅ ∧ ∀ c ∈ cs, (u.chan c).active.isSome) (fun c cs u hn hu => ?_) hn
    ⟨h.setClass k none, fun c hc => ?_⟩).1
  · obtain ⟨a, ha⟩ := Option.isSome_iff_exists.1 (hu.2 c List.mem_cons_self)
    refine ⟨hu.1.finish id ha _, fun d hd => (works_finishJob c u _).active_isSome ?_ (hu.2 d (List.mem_cons_of_mem c hd))⟩
    rintro rfl
    exact (List.nodup_cons.1 hn).1 hd
  · obtain ⟨w, hw, rfl⟩ := List.mem_map.1 hc
    have hs := (h.waiting w (List.mem_of_mem_filter hw)).2
    have := (h.whole w.chan id).1
    unfold Channel.Ok at this
    rw [hs] at this
    exact this.1

/-- A channel that a STOP names, when its turn comes: one that waited for a carrier still has its job, another is as the STOP found it. -/
def StopTurn (before : Chan → Channel) (u : State) (c : Chan) : Prop :=
  ((before c).state = .carrierWait → (before c).active.isSome ∧ u.Free c ∧ (u.chan c).active.isSome ∧
    ((u.chan c).hold.isSome ↔ (u.chan c).state = .held)) ∧
  ((before c).state ≠ .carrierWait → u.chan c = before c)

theorem StopTurn.works {before : Chan → Channel} (h : StopTurn before s c) (w : Works d s t) (hne : c ≠ d) : StopTurn before t c := by
  refine ⟨fun hs => ?_, fun hs => ?_⟩
  · obtain ⟨hb, hf, ha, hh⟩ := h.1 hs
    refine ⟨hb, hf.works w, w.active_isSome hne ha, ?_⟩
    rcases w.others c hne with e | ⟨g, e⟩ <;> rw [e]
    · exact hh
    · unfold Channel.granted
      split
      · next hc => simpa [hc] using hh
      · exact hh
  · have e := h.2 hs
    exact (w.other hne (by rw [e]; exact hs)).trans e

/-- STOP on several channels (R42, R62, R91). -/
theorem stop (h : s.Sound N ∅ ∅) {cs : List Chan} (hn : cs.Nodup) (w : StopWhen) (f : Bool) :
    ((s.withdrawWaiters cs).forEach cs (State.stopChannel s.chan w f)).Sound N ∅ ∅ := by
  have hw : (s.withdrawWaiters cs).Sound N {c | c ∈ cs ∧ (s.chan c).state = .carrierWait} ∅ := by
    refine (h.withdraw (cs.filter fun c => decide ((s.chan c).state = .carrierWait))).withOpen fun c => ?_
    simp
  obtain ⟨-, -, -, hch⟩ := s.withdrawWaiters_leaves cs
  have hturn : ∀ c ∈ cs, StopTurn s.chan (s.withdrawWaiters cs) c := by
    intro c hc
    refine ⟨fun hs => ?_, fun hs => by rw [hch, if_neg fun e => hs e.2]⟩
    have ha : (s.chan c).active.isSome := by
      have := (h.whole c id).1
      unfold Channel.Ok at this
      rw [hs] at this
      exact this.1
    refine ⟨ha, (h.free_of_active id ha).effects (effects_withdrawWaiters cs s), ?_⟩
    rw [hch, if_pos ⟨hc, hs⟩]
    exact ⟨ha, (h.whole c id).2⟩
  have hs := State.forEach_induction
    (P := fun cs u => u.Sound N {c | c ∈ cs ∧ (s.chan c).state = .carrierWait} ∅ ∧ ∀ c ∈ cs, StopTurn s.chan u c)
    (f := State.stopChannel s.chan w f) hn (fun ys n hp => ⟨?_, fun c hc => hturn c (hp.mem_iff.1 hc)⟩)
    fun c ys u hn hu => ⟨?_, fun d hd => ?_⟩
  · exact hs.1.withOpen fun d => ⟨fun m => absurd m.1 List.not_mem_nil, False.elim⟩
  · exact (hw.choices n).withOpen fun d => and_congr_left fun _ => hp.mem_iff.symm
  · have hc := (List.nodup_cons.1 hn).1
    obtain ⟨hwait, hsame⟩ := hu.2 c List.mem_cons_self
    refine (hu.1.stopChannel hwait (fun hne => ⟨fun m => hne m.2, hsame hne⟩) w f).withOpen fun d => ⟨?_, ?_⟩
    · rintro ⟨⟨hd, hs⟩, hne⟩
      exact ⟨(List.mem_cons.1 hd).resolve_left hne, hs⟩
    · rintro ⟨hd, hs⟩
      exact ⟨⟨List.mem_cons_of_mem c hd, hs⟩, fun e => hc (e ▸ hd)⟩
  · exact (hu.2 d (List.mem_cons_of_mem c hd)).works (works_stopChannel s.chan w f c u) fun e => (List.nodup_cons.1 hn).1 (e ▸ hd)

/-- The armed heads of several channels start (R33, R34). -/
theorem startHeads (h : s.Sound N ∅ ∅) {cs : List Chan} (hn : cs.Nodup) (hs : ∀ c ∈ cs, (s.chan c).state = .armed) :
    (s.forEach cs fun c t => t.startHead c).Sound N ∅ ∅ := by
  refine (State.forEach_induction (P := fun cs u => u.Sound N ∅ ∅ ∧ ∀ c ∈ cs, (u.chan c).state = .armed) (f := fun c (t : State) => t.startHead c)
    hn (fun ys n hp => ⟨h.choices n, fun c hc => hs c (hp.mem_iff.1 hc)⟩) fun c ys u hn hu => ?_).1
  have hc := hu.2 c List.mem_cons_self
  refine ⟨hu.1.startHead hc, fun d hd => ?_⟩
  have hd' := hu.2 d (List.mem_cons_of_mem c hd)
  rw [(works_startHead c u).other (fun e => (List.nodup_cons.1 hn).1 (e ▸ hd)) (by rw [hd']; exact nofun), hd']

theorem forEach (h : s.Sound N ∅ ∅) (cs : List Chan) {f : Chan → State → State} (hf : ∀ c u, u.Sound N ∅ ∅ → (f c u).Sound N ∅ ∅) :
    (s.forEach cs f).Sound N ∅ ∅ := by
  refine foldl_keeps (f := fun u x => f x u) (fun u c => hf c u) _ ?_
  rcases s.ordered_snd cs with e | e <;> rw [e]
  exacts [h, h.choices _]

/-! ### Channels that change without a job -/

theorem of_resting (h : s.Sound N X G) (hc : c ∉ X) (hs : (s.chan c).state = .off ∨ (s.chan c).state = .idle ∨ (s.chan c).state = .safe ∨
    (s.chan c).state = .fault) : (s.chan c).active = none ∧ (s.chan c).queue = [] ∧ (s.chan c).hold = none := by
  have hk := h.whole c hc
  have := hk.1
  unfold Channel.Ok at this
  rcases hs with e | e | e | e <;> rw [e] at this <;> exact ⟨this.1, this.2, hk.hold (by rw [e]; exact nofun)⟩

/-- The SAFE channels become IDLE as the lease runs again (R145). -/
theorem recover (h : s.Sound N ∅ ∅) (hch : ∀ c, t.chan c = if (s.chan c).state = .safe then { s.chan c with state := .idle } else s.chan c)
    (hl : t.lease.state ≠ .expired) (hcarb : t.carb = s.carb) (hp : t.ptab = s.ptab) : t.Sound N ∅ ∅ := by
  refine h.rest (fun c => ?_) (fun c => ⟨fun e => ?_, fun e => absurd e hl⟩) hcarb hp
  · rw [hch]
    split
    · next hs =>
      obtain ⟨ha, hq, hh⟩ := h.of_resting (c := c) id (by simp [hs])
      exact .inr ⟨ha, hq, ha, hq, hh, .inr (.inl rfl)⟩
    · exact .inl rfl
  · rw [hch] at e
    split at e
    · cases e
    · next hs => exact absurd e hs

/-- The named channels that are OFF, or in FAULT, are enabled (R102, R108). -/
theorem enlist (h : s.Sound N ∅ ∅) (mask : Byte) {x : ChState} (hx : x = .off ∨ x = .fault) : (s.enlist mask x).Sound N ∅ ∅ := by
  have hch : ∀ c, (s.enlist mask x).chan c = if mask.getLsbD c.val && decide ((s.chan c).state = x) then
      { s.chan c with state := s.lease.entryState (s.chan c).config } else s.chan c := fun c => by simp [State.enlist]
  refine h.rest (fun c => ?_) (fun c => ?_) rfl rfl
  · rw [hch]
    split
    · next hs =>
      have hs : (s.chan c).state = x := by simp at hs; exact hs.2
      obtain ⟨ha, hq, hh⟩ := h.of_resting (c := c) id (by rcases hx with rfl | rfl <;> simp [hs])
      refine .inr ⟨ha, hq, ha, hq, hh, ?_⟩
      dsimp only [LeaseTimer.entryState]
      split <;> simp
    · exact .inl rfl
  · rw [hch]
    change s.lease.Allows _
    split
    · unfold LeaseTimer.Allows LeaseTimer.entryState
      split
      · next he => exact ⟨fun _ => he.1, fun _ _ => .inr (.inl rfl)⟩
      · next he => exact ⟨nofun, fun e1 e2 => absurd ⟨e1, e2⟩ he⟩
    · exact h.lease c id

/-- The named channels, none of which has a job, become OFF (R103). -/
theorem disable (h : s.Sound N ∅ ∅) {mask : Byte} (hj : ((maskChans mask).any fun c => (s.chan c).hasJob) = false) :
    (s.mapChans fun c ch => if mask.getLsbD c.val && decide (ch.state ≠ .off) then Channel.empty .off ch.config else ch).Sound N ∅ ∅ := by
  have hjob : ∀ c : Chan, mask.getLsbD c.val = true → (s.chan c).active = none ∧ (s.chan c).queue = [] := by
    intro c hc
    have := List.any_eq_false.1 hj c (mem_maskChans.2 hc)
    simpa [Channel.hasJob] using this
  refine h.rest (fun c => ?_) (fun c => ?_) rfl rfl <;> rw [State.chan_mapChans]
  · split
    · next hs =>
      have hm : mask.getLsbD c.val = true := by simp at hs; exact hs.1
      exact .inr ⟨(hjob c hm).1, (hjob c hm).2, rfl, rfl, rfl, .inl rfl⟩
    · exact .inl rfl
  · split
    · exact ⟨nofun, fun _ _ => .inl rfl⟩
    · exact h.lease c id

/-- The configuration of an OFF channel is replaced (R99). -/
theorem configure (h : s.Sound N ∅ ∅) (cfg : LineConfig) (ho : (s.chan c).state = .off) :
    (s.modChan c fun ch => { ch with config := cfg }).Sound N ∅ ∅ := by
  refine h.rest (fun d => ?_) (fun d => ?_) rfl rfl <;> rw [State.chan_modChan]
  · split
    · next e =>
      subst e
      obtain ⟨ha, hq, hh⟩ := h.of_resting (c := d) id (.inl ho)
      exact .inr ⟨ha, hq, ha, hq, hh, .inl ho⟩
    · exact .inl rfl
  · split
    · next e =>
      subst e
      exact ⟨fun e => (by cases ho.symm.trans e), fun _ _ => .inl ho⟩
    · exact h.lease d id

/-- Every command's execution keeps it. -/
theorem executed (h : s.Sound N ∅ ∅) (e : Executed s t) : t.Sound N ∅ ∅ := by
  have hlease : ∀ l : LeaseTimer, l.state ≠ .expired → s.lease.state ≠ .expired → ({ s with lease := l } : State).Sound N ∅ ∅ :=
    fun l h1 h2 => h.congr (fun _ => rfl) rfl (fun _ => rfl) (iff_of_false h1 h2)
  have hquiet : ∀ {u : State}, u.chans = s.chans → u.carb = s.carb → u.ptab = s.ptab → u.lease = s.lease → u.Sound N ∅ ∅ :=
    fun h1 h2 h3 h4 => h.congr (State.chan_congr h1) h2 (fun p => by rw [State.entry_congr h3]) (by rw [h4])
  have hopen : ∀ {id g steps}, s.openLoad id = some (g, steps) → (s.entry id).refs = 0 := fun ho => by
    rw [(State.openLoad_eq_some ho).2]
    rfl
  cases e with
  | unchanged => exact h
  | counters | attention | fetched | acknowledged | lineConfigured => exact hquiet rfl rfl rfl rfl
  | lease period hne => exact hlease _ (by unfold LeaseTimer.withPeriod; dsimp only; split <;> exact nofun) hne
  | recovered =>
    refine h.recover (fun c => ?_) nofun rfl rfl
    exact State.chan_mapChans s c fun _ ch => if ch.state = .safe then { ch with state := .idle } else ch
  | opened id g _ _ hu =>
    refine h.setEntry (p := id) (e := .loading g []) ?_ rfl (fun _ => rfl) rfl rfl fun _ => rfl
    cases he : s.entry id with
    | ready g' steps refs => simpa [he, Entry.inUse, Entry.refs] using hu
    | _ => rfl
  | appended id g steps new ho =>
    exact h.setEntry (p := id) (e := .loading g (steps ++ new)) (hopen ho) rfl (fun _ => rfl) rfl rfl fun _ => rfl
  | resent id => exact h.congr (fun _ => rfl) rfl (fun _ => rfl) Iff.rfl
  | sealed id g steps ho => exact h.setEntry (p := id) (e := .ready g steps 0) (hopen ho) rfl (fun _ => rfl) rfl rfl fun _ => rfl
  | discarded id g steps ho => exact h.setEntry (p := id) (e := .free) (hopen ho) rfl (fun _ => rfl) rfl rfl fun _ => rfl
  | deleted id g steps he => exact h.setEntry (p := id) (e := .free) (by rw [he]; rfl) rfl (fun _ => rfl) rfl rfl fun _ => rfl
  | classSet k x => exact h.setClass k _
  | classCleared k => exact h.clearClass k
  | configured c cfg ho => exact h.configure cfg ho
  | enlisted mask x hx => exact h.enlist mask hx
  | disabled mask hj => exact h.disable hj
  | evicted cs hn => exact h.evictAll hn (fun c _ => h.lease c id) (.inl rfl) nofun _ _
  | accepted c j hr => exact h.acceptPlay hr _
  | cancelled c j hj => exact h.dropAndDecide hj _
  | stopped cs hn w f => exact h.stop hn w f
  | held cs => exact h.forEach cs fun c u hu => hu.holdChannel c
  | resumed cs => exact h.forEach cs fun c u hu => hu.resumeChannel c
  | started cs hn hs => exact h.startHeads hn fun c hc => (Channel.goReady_iff.1 (hs c hc)).1

/-! ### Events -/

/-- A cycle end of a generator (R80, R87, R88). -/
theorem cycleEnd (h : s.Sound N ∅ ∅) (g : GenId) : (s.cycleEnd g).Sound N ∅ ∅ := by
  unfold State.cycleEnd
  split
  · exact h
  · next k p b hg =>
    have hr := h.releaseGen (g := g) fun n => h.idle n g (by rw [hg]; exact nofun)
    rwa [Set.empty_sdiff] at hr
  · next k p b hg =>
    have hrun : (s.setGen g (.running k 0 true)).Sound N ∅ ∅ := by
      refine h.keep (fun _ _ => .refl _) Iff.rfl rfl (fun i => ?_) (h.refs.congr (fun _ => rfl) fun _ => rfl) fun _ => rfl
      rw [State.gen_setGen]
      split
      · next e => rw [e, hg]; rfl
      · rfl
    refine (State.forEach_induction (P := fun cs u => u.Sound N ∅ ∅ ∧ ∀ c ∈ cs, (u.chan c).At g) (f := State.cycleEndUser g)
      (s.users_nodup g) (fun ys n hp => ⟨hrun.choices n, fun c hc => State.mem_users.1 (hp.mem_iff.1 hc)⟩) fun c cs u hn hu => ?_).1
    refine ⟨hu.1.cycleEndUser (hu.2 c List.mem_cons_self), fun d hd => ?_⟩
    have hat := hu.2 d (List.mem_cons_of_mem c hd)
    have hne : (u.chan d).state ≠ .carrierWait := fun e => Channel.not_at ((hu.1.whole d id).attachment (by rw [e]; exact nofun)) g hat
    rw [(works_cycleEndUser g c u).other (fun e => (List.nodup_cons.1 hn).1 (e ▸ hd)) hne]
    exact hat

/-- A readback sample (R105, R107). -/
theorem readback (h : s.Sound N ∅ ∅) (hd : (s.chan c).readbackDue = true) (o : Bool) : (s.readback c o).Sound N ∅ ∅ := by
  obtain ⟨a, ha, hst⟩ : ∃ a, (s.chan c).active = some a ∧ (s.chan c).state = .playing := by
    unfold Channel.readbackDue at hd
    cases ha : (s.chan c).active with
    | none => rw [ha] at hd; cases hd
    | some a => rw [ha] at hd; simp at hd; exact ⟨a, rfl, hd.1.1.1.1⟩
  unfold State.readback
  split
  · refine h.touch (Channel.alike_of_fields rfl rfl rfl (by simp) (fun e => ?_) (.inl hst)) ?_ ?_
    · simpa [Channel.attachment, ha] using e
    · exact Channel.naming_congr (by simp [ha]) (.refl _)
    · simp [Channel.attachment, ha]
  · have he := h.evict (c := c) (.inr (by rw [hst]; exact nofun)) (.inr (.inr rfl)) nofun
      (.lineFault s.outs[c].expected o) .lineFault
    rwa [close_closed id] at he

/-- A sample of the sense lines starts the heads that its edges match (R33). -/
theorem sampleLines (h : s.Sound N ∅ ∅) (levels : BitVec 8) : (s.sampleLines levels).Sound N ∅ ∅ := by
  have hs : ((s.edges levels).foldl State.reportEdge (s.sampled levels)).Sound N ∅ ∅ ∧
      ∀ c, ((s.edges levels).foldl State.reportEdge (s.sampled levels)).chan c = s.chan c := by
    rw [State.report_edges]
    exact ⟨h.congr (fun _ => rfl) rfl (fun _ => rfl) Iff.rfl, fun _ => rfl⟩
  refine hs.1.startHeads ((List.nodup_finRange 8).filter _) fun c hc => ?_
  have hon := (List.mem_filter.1 hc).2
  rw [hs.2]
  simp only [Channel.startsOn, Bool.and_eq_true, decide_eq_true_eq] at hon
  exact hon.1.1

/-- Lease expiry (R142, R143). -/
theorem expireLease (h : s.Sound N ∅ ∅) : s.expireLease.Sound N ∅ ∅ := by
  refine (h.evictAll (l := { s.lease with state := .expired }) ((List.nodup_finRange 8).filter _) (fun c hc => ⟨fun _ => rfl, fun _ hg => ?_⟩)
    (.inr (.inl rfl)) (fun _ => rfl) _ _).report _ _ _ _ _ _
  have hc : (s.chan c).goesSafe = false := by simpa [chansWith] using hc
  simp only [Channel.goesSafe, hg, Bool.true_and, decide_eq_false_iff_not] at hc
  tauto

/-- One reference clock: the timers count (R35, R51, R80, R85, R139). -/
theorem tick (h : s.Sound N ∅ ∅) : s.tick.Sound N ∅ ∅ := by
  obtain ⟨n, q, e⟩ := s.tick_eq
  rw [e]
  have hact : ∀ ch : Channel, ch.tick.active.map (fun a => a.job.pattern) = ch.active.map (fun a => a.job.pattern) ∧
      ch.tick.active.isSome = ch.active.isSome ∧ ch.tick.attachment = ch.attachment ∧
      ch.tick.armed.map ArmedHead.number = ch.armed.map ArmedHead.number := by
    intro ch
    unfold Channel.tick Active.tick Channel.attachment
    cases ch.active with
    | none => cases ch.armed <;> simp [ArmedHead.tick]
    | some a =>
      dsimp only [Option.map_some]
      split <;> cases ch.armed <;> simp [ArmedHead.tick]
  have hch : ∀ c, ({ s.advance with choices := n, pending := q } : State).chan c = (s.chan c).tick := fun c => s.chan_advance c
  have hlease : s.lease.state.tick = .expired ↔ s.lease.state = .expired := by
    cases s.lease.state <;> simp [LeaseState.tick]
  refine h.keep (fun c _ => ?_) hlease rfl (fun g => ?_) (h.refs.congr (fun c => ?_) fun p => rfl) fun c => ?_
  · rw [hch]
    obtain ⟨-, hs, hat, hn⟩ := hact (s.chan c)
    exact Channel.alike_of_fields rfl rfl rfl hs (fun e => hat.trans e) (.inr (.inr (.inr ⟨rfl, hn⟩)))
  · change (s.advance.gen g).code = _
    rw [State.gen_advance]
    cases s.gen g <;> rfl
  · rw [hch]
    exact Channel.naming_congr (hact _).1 (.refl _)
  · rw [hch]
    exact (hact _).2.2.1

end State.Sound

/-! ### The statement -/

/-- Every part of a step keeps the channels, the wait list, the users, the lease and the reference counts in agreement. -/
theorem kept_sound (N : Prop) : Kept (State.Sound N ∅ ∅) where
  link _ _ h := h.congr (fun _ => rfl) rfl (fun _ => rfl) Iff.rfl
  pending _ _ h := h.congr (fun _ => rfl) rfl (fun _ => rfl) Iff.rfl
  renew s h := by
    refine h.congr (fun _ => rfl) rfl (fun _ => rfl) ?_
    change s.lease.renewed.state = .expired ↔ _
    unfold LeaseTimer.renewed
    cases hl : s.lease.state <;> simp [hl]
  settle s h := h.congr (State.chan_settle s) (by simp) (fun p => by simp) (by simp)
  owner r tag s h := h.executed (owner_executed s r tag)
  resetOutputs s _ := .resetOutputs s
  hardReset a r x s _ := .hardReset a r x s
  abandonLoad s _ h := by
    unfold State.abandonLoad
    split
    · exact h
    · next l hl =>
      split
      · next g steps he =>
        exact (h.setEntry (t := (s.setEntry l.id .free).emptySlot) (p := l.id) (e := .free) (by rw [he]; rfl) rfl (fun _ => rfl) rfl rfl
          fun _ => rfl).report _ _ _ _ _ _
      · exact h.congr (fun _ => rfl) rfl (fun _ => rfl) Iff.rfl
  expireWindow s c _ h := h.expireWindow c
  stepEnd s c hd h := by
    refine h.stepEnd id ?_
    unfold Channel.stepExpired at hd
    cases ha : (s.chan c).active with
    | none => rw [ha] at hd; cases hd
    | some a => rw [ha] at hd; simp at hd; exact hd.1.1.1
  cycleEnd s g _ h := h.cycleEnd g
  expireWait s c hd h := by
    have hs : (s.chan c).state = .carrierWait := by
      unfold Channel.waitExpired at hd
      simp at hd
      exact hd.1
    have := (h.whole c id).1
    unfold Channel.Ok at this
    rw [hs] at this
    obtain ⟨a, ha⟩ := Option.isSome_iff_exists.1 this.1
    exact h.finish id ha _
  readback s c o hd h := h.readback hd o
  sample s l h := h.sampleLines l
  holdAge _ h := h.congr (fun _ => rfl) rfl (fun _ => rfl) Iff.rfl
  expireLease _ _ h := h.expireLease
  endHigh s g h := by
    refine h.keep (fun _ _ => .refl _) Iff.rfl rfl (fun i => ?_) (h.refs.congr (fun _ => rfl) fun _ => rfl) fun _ => rfl
    rw [State.gen_setGen]
    split
    · next e => rw [e]; cases s.gen g <;> rfl
    · rfl
  tick _ h := h.tick

/-- A line depends on its channel's state and configuration, on where its job stands and under which gate, and on whether the
generators are in their high portions (R100). -/
theorem State.drivenLevel_of_alike (hcfg : (t.chan c).config = (s.chan c).config) (hst : (t.chan c).state = (s.chan c).state)
    (ha : (t.chan c).active.map (fun a => (a.job.pattern, a.stepIndex, a.attach))
      = (s.chan c).active.map fun a => (a.job.pattern, a.stepIndex, a.attach))
    (hp : ∀ p, (t.entry p).clearRefs = (s.entry p).clearRefs) (hg : ∀ g, (t.gen g).inHigh = (s.gen g).inHigh) :
    t.drivenLevel c = s.drivenLevel c := by
  unfold State.drivenLevel State.level
  rw [hcfg, hst]
  cases h : (s.chan c).active with
  | none =>
    have h' : (t.chan c).active = none := by simpa [h] using ha
    rw [h']
  | some a =>
    obtain ⟨b, hb, e⟩ : ∃ b, (t.chan c).active = some b ∧ (b.job.pattern, b.stepIndex, b.attach) = (a.job.pattern, a.stepIndex, a.attach) := by
      rw [h] at ha
      exact Option.map_eq_some_iff.1 ha
    simp only [Prod.mk.injEq] at e
    obtain ⟨e1, e2, e3⟩ := e
    have hstep : t.currentStep b = s.currentStep a := by
      rw [State.currentStep_of_clearRefs hp]
      unfold State.currentStep
      rw [e1, e2]
    have hl : t.playingLevel (s.chan c).config b = s.playingLevel (s.chan c).config a := by
      unfold State.playingLevel
      rw [e3, hstep]
      simp only [hg]
    simp only [hb, hl]

/-- One reference clock leaves every line and ATTN_N as they were, and what they say of the state. -/
theorem State.Settled.tick (h : s.Settled) : s.tick.Settled := by
  obtain ⟨n, q, e⟩ := s.tick_eq
  rw [e]
  have hch : ∀ c, ({ s.advance with choices := n, pending := q } : State).chan c = (s.chan c).tick := fun c => s.chan_advance c
  refine ⟨h.outbox, fun c => (h.outs c).trans ?_, ?_⟩
  · have hl : ({ s.advance with choices := n, pending := q } : State).drivenLevel c = s.drivenLevel c := by
      refine State.drivenLevel_of_alike (by rw [hch]; rfl) (by rw [hch]; rfl) ?_ (fun _ => rfl) fun g => ?_
      · rw [hch]
        unfold Channel.tick Active.tick
        cases (s.chan c).active with
        | none => rfl
        | some a => dsimp only [Option.map_some]; split <;> rfl
      · change (s.advance.gen g).inHigh = _
        rw [State.gen_advance]
        cases s.gen g <;> rfl
    exact hl.symm
  · have hp : s.rpt.tick.attention = s.rpt.attention ∧ s.rpt.tick.pulls = s.rpt.pulls := by
      unfold ReportUnit.tick
      split <;> exact ⟨rfl, rfl⟩
    exact hp.1.trans (h.attention.trans hp.2.symm)

/-- Every step leaves the lines and ATTN_N as the state says. -/
theorem step_settled (e : step s = .next t) (h : s.Settled) : t.Settled := by
  rcases step_cases e with rfl | ⟨i, rest, -, e⟩
  · exact h.tick
  · cases exec_leaves e with
    | same => exact ⟨h.outbox, h.outs, h.attention⟩
    | settled u => exact u.settled_settle
    | reset a r x => exact State.settled_hardReset a r x _

/-- Settles O60: the four invariants are kept together, with and without the generators' users. -/
theorem stepKeepsChannels : Obligations.StepKeepsChannels := by
  intro s t e
  refine ⟨fun hc hw hl hr => ?_, fun hc hw hl hr hu => ?_, step_settled e⟩
  · have hs : s.Sound False ∅ ∅ := State.sound_iff.2 ⟨hc, hw, hl, hr, False.elim⟩
    obtain ⟨hc', hw', hl', hr', -⟩ := State.sound_iff.1 ((kept_sound False).step s t hs e)
    exact ⟨hc', hw', hl', hr'⟩
  · have hs : s.Sound True ∅ ∅ := State.sound_iff.2 ⟨hc, hw, hl, hr, fun _ => hu⟩
    obtain ⟨-, -, -, -, hu'⟩ := State.sound_iff.1 ((kept_sound True).step s t hs e)
    exact hu' trivial

end Sys2Proof.Machine
end

section
/-! PROOFS. PLAY accepted (R29, R30, R38, R55, R68): the queued job is set apart from what the channel then does, and the two statements. -/

namespace Sys2Proof.Machine

variable {s t u : State} {c d : Chan} {v : Via} {p : PlayFields} {j : Job} {a : Active}

/-! ### The queued job -/

/-- The job that a PLAY queues, with the number allocated to it (R25, R29). -/
def State.numbered (s : State) (j : Job) : Job :=
  { j with number := s.allocatedNumber }

/-- The state once a PLAY has queued its job, before the channel acts on it (R29). -/
def State.queued (s : State) (c : Chan) (j : Job) : State :=
  s.enqueue c (s.numbered j)

theorem State.chan_queued_same (s : State) (c : Chan) (j : Job) :
    (s.queued c j).chan c = { s.chan c with queue := insertJob (s.numbered j) (s.chan c).queue } := by
  rw [State.queued, State.chan_enqueue, if_pos rfl]

theorem State.chan_queued_other (s : State) (j : Job) (h : d ≠ c) : (s.queued c j).chan d = s.chan d := by
  rw [State.queued, State.chan_enqueue, if_neg h]

theorem State.entry_queued (s : State) (c : Chan) (j : Job) (q : PatId) :
    (s.queued c j).entry q = if q = j.pattern then (s.entry q).addRef else s.entry q :=
  State.entry_addRef { s with nextJob := nextNumber s.allocatedNumber } j.pattern q

theorem State.clearRefs_queued (s : State) (c : Chan) (j : Job) (q : PatId) : ((s.queued c j).entry q).clearRefs = (s.entry q).clearRefs := by
  rw [State.entry_queued]
  split
  exacts [Entry.clearRefs_addRef _, rfl]

theorem State.entry_queued_pattern {h : Header} {steps : List Step} {n : Nat} (c : Chan) (he : s.entry j.pattern = .ready h steps n) :
    (s.queued c j).entry j.pattern = .ready h steps (n + 1) := by
  rw [State.entry_queued, if_pos rfl, he]
  rfl

/-- A queued job moves no line. -/
theorem State.drivenLevel_queued (s : State) (c : Chan) (j : Job) (d : Chan) : (s.queued c j).drivenLevel d = s.drivenLevel d := by
  refine State.drivenLevel_of_alike ?_ ?_ ?_ (s.clearRefs_queued c j) fun _ => rfl
  all_goals
    by_cases e : d = c
    · rw [e, State.chan_queued_same]
    · rw [State.chan_queued_other s j e]

theorem State.Settled.queued (hs : s.Settled) (c : Chan) (j : Job) : (s.queued c j).Settled :=
  ⟨hs.outbox, fun d => (hs.outs d).trans (s.drivenLevel_queued c j d).symm, hs.attention⟩

theorem State.keepsAllBut_queued (s : State) (c : Chan) (j : Job) : s.KeepsAllBut (s.queued c j) [.patterns, .channels, .jobCounter] := by
  refine ⟨fun b hb => ?_, rfl, rfl⟩
  cases b <;> first | rfl | simp at hb

/-! ### The place in the queue -/

theorem insertJob_nil (j : Job) : insertJob j [] = [j] := rfl

theorem insertJob_behind {x : Job} (q : List Job) (h : j.priority ≤ x.priority) : insertJob j (x :: q) = x :: insertJob j q := by
  simp [insertJob, h]

theorem insertJob_before {x : Job} (q : List Job) (h : x.priority < j.priority) : insertJob j (x :: q) = j :: x :: q := by
  simp [insertJob, h]

theorem Channel.position_of_absent {ch : Channel} {n : Half} (h : ∀ x ∈ ch.queue, x.number ≠ n) : ch.position n = 0 := by
  have e : ch.queue.findIdx? (fun x => x.number == n) = none := by simpa [List.findIdx?_eq_none_iff] using h
  rw [Channel.position, e]

/-- The place of a job whose number no other job has (R29). -/
theorem Channel.position_insert {ch : Channel} {q : List Job} (hq : ch.queue = insertJob j q) (h : ∀ x ∈ q, x.number ≠ j.number) :
    ch.position j.number = (q.takeWhile fun x => j.priority ≤ x.priority).length + 1 := by
  have e : (insertJob j q).findIdx? (fun x => x.number == j.number) = some (q.takeWhile fun x => j.priority ≤ x.priority).length := by
    unfold insertJob
    rw [List.findIdx?_append]
    have hn : (q.takeWhile fun x => j.priority ≤ x.priority).findIdx? (fun x => x.number == j.number) = none := by
      rw [List.findIdx?_eq_none_iff]
      exact fun x hx => by simpa using h x ((List.takeWhile_sublist _).subset hx)
    rw [hn]
    simp [List.findIdx?_cons]
  rw [Channel.position, hq, e]

/-- The number allocated is that of no job queued. -/
theorem State.allocatedNumber_fresh (hq : ∀ d, (s.chan d).QueueOk) (hn : s.NumbersOk) (c : Chan) :
    ∀ x ∈ (s.chan c).queue, x.number ≠ s.allocatedNumber := by
  intro x hx e
  obtain ⟨-, hfree, -⟩ := jobNumberAllocation s hq hn
  refine hfree (List.mem_flatMap.2 ⟨c, List.mem_finRange c, ?_⟩)
  exact List.mem_append_right _ (List.mem_map.2 ⟨x, hx, e⟩)

/-! ### The answer -/

theorem State.playRefusal_of_working (hs : (s.chan c).state = .idle ∨ (s.chan c).state = .armed ∨ (s.chan c).state = .playing ∨
      (s.chan c).state = .carrierWait ∨ (s.chan c).state = .held) (hq : (s.chan c).queue.length < 4) {h : Header} {steps : List Step} {n : Nat}
    (he : s.entry j.pattern = .ready h steps n) : s.playRefusal c j.pattern = none := by
  refine State.playRefusal_none ?_ ?_ (Entry.isReady_iff.2 ⟨h, steps, n, he⟩) hq
  all_goals rcases hs with e | e | e | e | e <;> simp [e]

/-- A PLAY that passes its checks: what it comes to, and how it is answered. -/
theorem play_answered (hx : s.Executes v (.play p)) (hp : p.Spells c j) (hr : s.playRefusal c j.pattern = none)
    (hu : (s.queued c j).playEffect c ((s.chan c).preemptedBy j) = u) :
    ∃ t, exec (.play v p) s = .next t ∧ (∃ l, t = { u.settle with link := l }) ∧
      ∀ changed, [.patterns, .channels, .jobCounter] ⊆ changed → (s.queued c j).KeepsAllBut u.settle changed →
        s.Answered t v (.play p)
          (halfBytes s.allocatedNumber ++ [byteOf ((u.chan c).position s.allocatedNumber), flagByte ((s.chan c).preemptedBy j)]) changed := by
  have hi : Instr.request (.play v p) = some (v, .play p) := rfl
  have hfits : Request.Fits (.play p) := trivial
  obtain ⟨t, ht⟩ := exec_next hi hfits hx
  have ho := ownerPlay_accepted hp hr
  have hl : u.link = s.link := by
    rw [← hu]
    exact State.acceptPlay_link s c (s.numbered j)
  have e : s.acceptPlay c { j with number := s.allocatedNumber } = u := hu
  dsimp only at ho
  rw [e] at ho
  obtain ⟨h1, h2⟩ := answered_of_exec hi hfits hx ht ho hl
  refine ⟨t, ht, ⟨_, h1⟩, fun changed hsub hk => h2 changed ?_⟩
  exact (((s.keepsAllBut_queued c j).mono hsub).trans hk).mono (List.subset_cons_self _ _)

theorem Channel.preemptedBy_idle {ch : Channel} (h : ch.active = none) (j : Job) : ch.preemptedBy j = false := by
  simp only [Channel.preemptedBy, h]

theorem Channel.preemptedBy_iff {ch : Channel} (h : ch.active = some a) :
    ch.preemptedBy j = true ↔ j.flags.preempt = true ∧ a.job.priority < j.priority ∧ a.stop = none := by
  simp [Channel.preemptedBy, h, and_assoc]

end Sys2Proof.Machine
end

section
/-! PROOFS. PLAY on an IDLE and on an ARMED channel (R29, R31, R38, R55, R182), and the statement. -/

namespace Sys2Proof.Machine

variable {s t u : State} {c d : Chan} {v : Via} {p : PlayFields} {j : Job} {a : Active} {h : Header} {x : Step} {steps : List Step} {n : Nat}
  {k : Cls}

/-- On an IDLE and on an ARMED channel the head decision follows at once (R29, R38). -/
theorem State.playEffect_decides (hst : (s.chan c).state = .idle ∨ (s.chan c).state = .armed) (b : Bool) :
    (s.queued c j).playEffect c b = State.decideHead c (insertJob (s.numbered j) (s.chan c).queue) (s.queued c j) := by
  unfold State.playEffect State.headDecision
  rw [State.chan_queued_same]
  rcases hst with e | e <;> simp only [e]

/-- The blocks that a PLAY reaches beside the pattern table, the channels and the job counter. -/
theorem Works.keepsAllBut_play (w : Works c (s.queued c j) u) (hs : s.Settled) {changed : List Block}
    (hsub : [.patterns, .channels, .jobCounter] ⊆ changed) (hcarriers : .carriers ∉ changed → u.carb = s.carb)
    (houtputs : .outputs ∉ changed → u.drivenLevel c = s.drivenLevel c ∧ u.carb.gens = s.carb.gens ∧ ∀ d, d ≠ c → u.chan d = s.chan d)
    (hreports : .reports ∉ changed → u.outbox = []) : (s.queued c j).KeepsAllBut u.settle changed := by
  refine w.keepsAllBut (hs.queued c j) (hsub (by simp)) (fun h => absurd (hsub (by simp)) h) hcarriers (fun ho d => ?_) hreports
  obtain ⟨hc, hg, hd⟩ := houtputs ho
  by_cases e : d = c
  · rw [e, hc, State.drivenLevel_queued]
  · exact w.drivenLevel ((hd d e).trans (State.chan_queued_other s j e).symm) hg

/-- What becomes of the other channels and of the tables where the queued job's channel has worked alone. -/
theorem State.Alone.after_queued {ch : Channel} {made : List Report} (h : (s.queued c j).Alone u c ch made) (w : Works c (s.queued c j) u)
    (hs : s.Settled) (ht : ∃ l, t = { u.settle with link := l }) :
    t.nextJob = nextNumber s.allocatedNumber ∧ t.ptab.load = s.ptab.load ∧ s.KeepsChannelsBut t c ∧ t.chan c = ch ∧ t.rpt = s.rpt.taking made ∧
      (∀ q, t.entry q = u.entry q) ∧ t.carb = u.carb := by
  obtain ⟨l, rfl⟩ := ht
  refine ⟨u.settle_nextJob.trans w.nextJob, (congrArg PatternTable.load u.settle_ptab).trans w.load, fun d hd => ?_, h.chan,
    h.taking (hs.queued c j), State.entry_settle u, u.settle_carb⟩
  exact (h.keepsChannels d hd).trans (State.chan_queued_other s j hd)

/-! ### A steady step 0 -/

theorem startReports_of_now {y : Job} (h : y.start = .now) : startReports s c y
    = if y.flags.reportStart then [⟨.started, s.rpt.partTime, some c, y.number, byteOf y.pattern.val, 0x00#8⟩] else [] := by
  rw [startReports, h]
  rfl

/-- What a PLAY leaves outside its channel and the reports, where its job keeps its reference (R29). -/
structure State.Takes (s t : State) (c : Chan) (j : Job) (h : Header) (steps : List Step) (n : Nat) : Prop where
  nextJob : t.nextJob = nextNumber s.allocatedNumber
  named : t.entry j.pattern = .ready h steps (n + 1)
  others : ∀ q, q ≠ j.pattern → t.entry q = s.entry q
  load : t.ptab.load = s.ptab.load
  channels : s.KeepsChannelsBut t c

theorem State.Alone.takes {ch : Channel} {made : List Report} (ha : (s.queued c j).Alone u c ch made) (w : Works c (s.queued c j) u)
    (hs : s.Settled) (ht : ∃ l, t = { u.settle with link := l }) (hptab : u.ptab = (s.queued c j).ptab)
    (he : s.entry j.pattern = .ready h steps n) : s.Takes t c j h steps n := by
  obtain ⟨h1, h2, h3, -, -, h6, -⟩ := ha.after_queued w hs ht
  refine ⟨h1, ?_, fun q hne => ?_, h2, h3⟩ <;> rw [h6, State.entry_congr hptab]
  · exact s.entry_queued_pattern c he
  · rw [State.entry_queued, if_neg hne]

section Decides

variable (hs : s.Settled) (hx : s.Executes v (.play p)) (hp : p.Spells c j) (hst : (s.chan c).state = .idle ∨ (s.chan c).state = .armed)
  (ha : (s.chan c).active = none) (hlen : (s.chan c).queue.length < 4)

include hs hx hp hst ha hlen

/-- The queued job is the head and starts, its step 0 a steady one (R31, R38, R50). -/
theorem play_starts {rest : List Job} (he : s.entry j.pattern = .ready h (x :: steps) n) (hi : insertJob (s.numbered j) (s.chan c).queue = s.numbered j :: rest)
    (hn : j.start = .now) (hk : ∀ k, x.kind ≠ .carrier k) (hfresh : ∀ y ∈ rest, y.number ≠ s.allocatedNumber) :
    ∃ t, exec (.play v p) s = .next t ∧ s.Takes t c j h (x :: steps) n ∧
      t.chan c = Channel.started (s.numbered j) rest h.repeats (x.duration.toNat * h.timeUnit.clocks) (s.chan c) ∧
      t.rpt = s.rpt.taking (startReports s c (s.numbered j) ++ firstMark s c (s.numbered j) x) ∧
      s.Answered t v (.play p) (halfBytes s.allocatedNumber ++ [0x00#8, 0x00#8]) [.patterns, .channels, .jobCounter, .outputs, .reports] := by
  have hdec := State.playEffect_decides (j := j) hst ((s.chan c).preemptedBy j)
  rw [hi] at hdec
  obtain ⟨t, ht, htu, hans⟩ := play_answered hx hp (State.playRefusal_of_working (hst.imp_right .inl) hlen he) hdec
  have hw := works_decideHead c (s.numbered j :: rest) (s.queued c j) (by rw [s.chan_queued_same c j, hi])
  have halone := State.alone_start (s := s.queued c j) (c := c) (j := s.numbered j) rest (s.entry_queued_pattern c he)
  rw [← State.decideHead_starts (s := s.queued c j) (j := s.numbered j) rest hn (s.entry_queued_pattern c he) hk] at halone
  have hleaves : (State.decideHead c (s.numbered j :: rest) (s.queued c j)).carb = s.carb ∧
      (State.decideHead c (s.numbered j :: rest) (s.queued c j)).ptab = (s.queued c j).ptab := by
    rw [State.decideHead_starts (s := s.queued c j) (j := s.numbered j) rest hn (s.entry_queued_pattern c he) hk]
    exact ⟨by simp [State.carb_startJob]; rfl, by simp⟩
  obtain ⟨-, -, -, h4, h5, -⟩ := halone.after_queued hw hs htu
  have hans := hans [.patterns, .channels, .jobCounter, .outputs, .reports] (by simp)
    (hw.keepsAllBut_play hs (by simp) (fun _ => hleaves.1) (by simp) (by simp))
  rw [halone.own, Channel.position_of_absent (by exact hfresh), Channel.preemptedBy_idle ha] at hans
  rw [s.chan_queued_same c j] at h4
  exact ⟨t, ht, halone.takes hw hs htu hleaves.2 he, h4, h5, hans⟩

/-- The head that the queue then has arms the channel, or keeps it armed (R23, R35, R38). -/
theorem play_arms {i : Job} {rest : List Job} (he : s.entry j.pattern = .ready h steps n)
    (hi : insertJob (s.numbered j) (s.chan c).queue = i :: rest) (hn : i.start ≠ .now)
    (hfresh : ∀ y ∈ (s.chan c).queue, y.number ≠ s.allocatedNumber) :
    ∃ t, exec (.play v p) s = .next t ∧ s.Takes t c j h steps n ∧ t.chan c = (s.chan c).armFor i rest ∧
      s.Answered t v (.play p) (halfBytes s.allocatedNumber
        ++ [byteOf (((s.chan c).queue.takeWhile fun y => j.priority ≤ y.priority).length + 1), 0x00#8]) [.patterns, .channels, .jobCounter] := by
  have hdec := State.playEffect_decides (j := j) hst ((s.chan c).preemptedBy j)
  rw [hi] at hdec
  obtain ⟨t, ht, htu, hans⟩ := play_answered hx hp (State.playRefusal_of_working (hst.imp_right .inl) hlen he) hdec
  have hw := works_decideHead c (i :: rest) (s.queued c j) (by rw [s.chan_queued_same c j, hi])
  have hd : State.decideHead c (i :: rest) (s.queued c j) = (s.queued c j).modChan c (Channel.armFor i rest) := State.decideHead_arms c rest _ hn
  have halone := State.Alone.modChan (s.queued c j) c (Channel.armFor i rest)
  rw [s.chan_queued_same c j] at halone
  rw [hd] at hw hans htu
  obtain ⟨-, -, -, h4, -⟩ := halone.after_queued hw hs htu
  have hans := hans [.patterns, .channels, .jobCounter] (by simp) (hw.keepsAllBut_play hs (by simp) (fun _ => rfl)
    (fun _ => ⟨State.drivenLevel_of_resting (by rw [halone.own]; rfl) (.inr (.inl (by rw [halone.own]; rfl))) (by tauto), rfl, fun d hd => ?_⟩)
    fun _ => halone.outbox (hs.queued c j))
  · rw [halone.own, Channel.preemptedBy_idle ha] at hans
    have hpos : ((s.chan c).armFor i rest).position s.allocatedNumber
        = ((s.chan c).queue.takeWhile fun y => j.priority ≤ y.priority).length + 1 :=
      Channel.position_insert (ch := (s.chan c).armFor i rest) (j := s.numbered j) (q := (s.chan c).queue) hi.symm hfresh
    refine ⟨t, ht, halone.takes hw hs htu rfl he, h4, ?_⟩
    rw [← hpos]
    exact hans
  · rw [halone.others d hd, State.chan_queued_other s j hd]

end Decides

/-! ### A CARRIER step 0 -/

/-- A job that has started and stands at its step 0, a CARRIER step whose gate is not yet open (R49, R55). -/
def Job.startedCarrier (j : Job) (repeats : Byte) (length : Nat) : Active :=
  ⟨j, 0, 0x00#8, j.override.getD repeats, length, .notStarted, none, none, false⟩

/-- The record of a channel whose head has started and asks for a carrier. -/
def Channel.startedCarrier (j : Job) (rest : List Job) (repeats : Byte) (length : Nat) (ch : Channel) : Channel :=
  { ch with state := .playing, queue := rest, armed := none, active := some (j.startedCarrier repeats length) }

section Carrier

variable (rest : List Job) (hn : j.start = .now) (he : s.entry j.pattern = .ready h (x :: steps) n) (hk : x.kind = .carrier k)

include he hk

theorem State.enterStep_startCarrier : (s.startJob c j rest).enterStep c
    = (s.startJob c j rest).enterCarrierStep c (j.starting h.repeats) x k := by
  rw [State.enterStep, State.startJob_active rest he]
  simp only [State.startJob_currentStep rest he, hk]

include hn

/-- A NOW head whose CARRIER step 0 is of an undefined class ends in the event of its start (R55). -/
theorem State.decideHead_noClass (hc : s.carrierClass k = none) : State.decideHead c (j :: rest) s
    = State.decideHead c rest ((s.startJob c j rest).endJob c .noCarrierClass) := by
  have hcl : (s.startJob c j rest).carrierClass k = none := by
    rw [State.carrierClass, State.carb_startJob]
    exact hc
  have e : (s.startJob c j rest).enterStep c = (s.startJob c j rest, some .noCarrierClass) := by
    rw [State.enterStep_startCarrier rest he hk, State.enterCarrierStep, hcl]
  rw [State.decideHead]
  simp only [hn, e]

/-- A NOW head whose CARRIER step 0 is of a defined class asks for it (R55, R81): the channel's work up to the request. -/
theorem State.decideHead_asks (hc : s.carrierClass k ≠ none) : ∃ u, State.decideHead c (j :: rest) s = u.request c k ∧
    s.Alone u c (Channel.startedCarrier j rest h.repeats (x.duration.toNat * h.timeUnit.clocks) (s.chan c))
      (startReports s c j ++ firstMark s c j x) ∧ u.carb = s.carb ∧ u.ptab = s.ptab := by
  obtain ⟨y, hy⟩ := Option.ne_none_iff_exists'.1 hc
  have hcl : (s.startJob c j rest).carrierClass k = some y := by
    rw [State.carrierClass, State.carb_startJob]
    exact hy
  have hl : (s.startJob c j rest).stepLength (j.starting h.repeats).job.pattern x = x.duration.toNat * h.timeUnit.clocks :=
    State.startJob_stepLength rest he
  have hs := (s.alone_startJob c j rest).thenChan fun ch => { ch with active := ch.active.map (Active.enterCarrier (x.duration.toNat * h.timeUnit.clocks)) }
  have hm := hs.trans (State.alone_markEntry _ c (j.starting h.repeats) x)
  rw [hs.own] at hm
  have hreports : markReports ((s.startJob c j rest).modChan c
      fun ch => { ch with active := ch.active.map (Active.enterCarrier (x.duration.toNat * h.timeUnit.clocks)) }) c (j.starting h.repeats) x
      = firstMark s c j x := by
    have : (s.startJob c j rest).rpt = s.rpt := s.rpt_startJob c j rest
    simp only [markReports, firstMark, State.modChan_rpt, this, Job.starting]
    rfl
  have hrep : s.repeatsOf j.pattern = h.repeats := by rw [State.repeatsOf, he]
  rw [hreports, hrep] at hm
  refine ⟨_, ?_, hm, by rw [State.carb_markEntry, State.modChan_carb, State.carb_startJob], by rw [State.ptab_markEntry, State.modChan_ptab, State.ptab_startJob]⟩
  have e : (s.startJob c j rest).enterStep c
      = ((((s.startJob c j rest).modActive c (Active.enterCarrier (x.duration.toNat * h.timeUnit.clocks))).markEntry c (j.starting h.repeats) x).request
          c k, none) := by
    rw [State.enterStep_startCarrier rest he hk, State.enterCarrierStep, hcl]
    dsimp only
    rw [hl]
    exact congrArg _ (ite_self none)
  rw [State.decideHead]
  simp only [hn, e]
  rfl

/-- Either way the channel alone changes and no other reference is touched, where no NOW job stands behind. -/
theorem State.alone_decideHead_carrier (hst : s.SteadyHead rest) : ∃ ch made, s.Alone (State.decideHead c (j :: rest) s) c ch made ∧
    ∀ q, q ≠ j.pattern → (State.decideHead c (j :: rest) s).entry q = s.entry q := by
  by_cases hc : s.carrierClass k = none
  · rw [State.decideHead_noClass rest hn he hk hc]
    have hs := s.alone_startJob c j rest
    have hact := State.startJob_active (c := c) rest he
    have hend := hs.trans (State.alone_endJob_unattached .noCarrierClass hact rfl)
    have hw : ∀ p, ((((s.startJob c j rest).endJob c .noCarrierClass).entry p).clearRefs) = (s.entry p).clearRefs := fun p =>
      ((works_endJob c (s.startJob c j rest) .noCarrierClass).entries p).trans (by rw [State.entry_congr (s.ptab_startJob c j rest)])
    obtain ⟨ch, made, halone, -, hptab⟩ := State.alone_decideHead c (hst.congr hw)
    refine ⟨ch, _, hend.trans halone, fun q hne => ?_⟩
    rw [State.entry_congr hptab, State.entry_congr (State.ptab_endJob .noCarrierClass hact), State.entry_dropRef, if_neg (by exact hne),
      State.entry_congr (s.ptab_startJob c j rest)]
  · obtain ⟨u, e, hu, -, hptab⟩ := State.decideHead_asks (c := c) rest hn he hk hc
    obtain ⟨ch, hr⟩ := u.alone_request c k
    rw [e]
    exact ⟨ch, _, hu.trans hr, fun q _ => by rw [State.entry_congr (u.ptab_request c k), State.entry_congr hptab]⟩

end Carrier

theorem State.Asks.withLink {ch : Channel} (h : s.Asks t c k ch a) (l : HostLink) : s.Asks { t with link := l } c k ch a :=
  ⟨h.joins, h.allocates, h.waits, h.classes⟩

section IdleCarrier

variable (hs : s.Settled) (hx : s.Executes v (.play p)) (hp : p.Spells c j) (hn : j.start = .now)
  (hst : (s.chan c).state = .idle) (ha : (s.chan c).active = none) (hq : (s.chan c).queue = []) (harm : (s.chan c).armed = none)
  (he : s.entry j.pattern = .ready h (x :: steps) n) (hk : x.kind = .carrier k)

include hs hx hp hn hst ha hq harm he hk

/-- The job of an undefined class ends in the event of its start (R55). -/
theorem play_noClass (hw : s.WaitersOk) (hc : s.carrierClass k = none) : ∃ t, exec (.play v p) s = .next t ∧
    t.nextJob = nextNumber s.allocatedNumber ∧ (∀ q, t.entry q = s.entry q) ∧ t.ptab.load = s.ptab.load ∧ s.KeepsChannelsBut t c ∧
    t.chan c = { s.chan c with state := .idle, holdRequest := false, waitTimer := none } ∧
    t.rpt = s.rpt.taking (startReports s c (s.numbered j)
      ++ [⟨.ended, s.rpt.partTime, some c, s.allocatedNumber, byteOf j.pattern.val, 0x05#8⟩]) ∧
    s.Answered t v (.play p) (halfBytes s.allocatedNumber ++ [0x00#8, 0x00#8]) [.patterns, .channels, .jobCounter, .reports] := by
  have hdec := State.playEffect_decides (j := j) (.inl hst) ((s.chan c).preemptedBy j)
  rw [hq, insertJob_nil] at hdec
  obtain ⟨t, ht, htu, hans⟩ := play_answered hx hp (State.playRefusal_of_working (.inl hst) (by simp [hq]) he) hdec
  have hwork := works_decideHead c [s.numbered j] (s.queued c j) (by rw [s.chan_queued_same c j, hq]; rfl)
  have heq := s.entry_queued_pattern c he
  have e := State.decideHead_noClass (s := s.queued c j) (c := c) (j := s.numbered j) [] hn heq hk hc
  have hact := State.startJob_active (s := s.queued c j) (c := c) (j := s.numbered j) [] heq
  have hstart := (s.queued c j).alone_startJob c (s.numbered j) []
  have halone := (hstart.trans (State.alone_endJob_unattached .noCarrierClass hact rfl)).thenChan Channel.becomeIdle
  rw [hstart.own, s.chan_queued_same c j, endReports_of_ne (by simp)] at halone
  have hptab := State.ptab_endJob .noCarrierClass hact
  have hcarb := (State.endJob_of_unattached .noCarrierClass hact rfl).1
  rw [State.carb_startJob] at hcarb
  have hcarb : (((s.queued c j).startJob c (s.numbered j) []).endJob c .noCarrierClass).carb = s.carb := by
    rw [hcarb]
    have := State.filter_waitList_of_not_waiting (s := s) (c := c) hw (by simp [hst])
    exact congrArg (fun l => { s.carb with waitList := l }) this
  rw [State.decideHead_nil] at e
  rw [e] at hwork htu hans
  obtain ⟨h1, h2, h3, h4, h5, h6, -⟩ := halone.after_queued hwork hs htu
  have hans := hans [.patterns, .channels, .jobCounter, .reports] (by simp)
    (hwork.keepsAllBut_play hs (by simp) (fun _ => hcarb)
      (fun _ => ⟨State.drivenLevel_of_resting (hwork.own.config.trans (by rw [s.chan_queued_same c j])) (.inl (by rw [halone.own]; rfl)) (.inl hst), congrArg Carriers.gens hcarb,
        fun d hd => (halone.others d hd).trans (s.chan_queued_other j hd)⟩) (by simp))
  rw [halone.own, Channel.position_of_absent (by simp [Channel.becomeIdle]), Channel.preemptedBy_idle ha] at hans
  refine ⟨t, ht, h1, fun q => ?_, h2, h3, h4.trans ?_, h5.trans ?_, hans⟩
  · rw [h6, State.entry_congr (by exact hptab), State.entry_dropRef, State.entry_congr ((s.queued c j).ptab_startJob c _ []), State.entry_queued]
    change (if q = j.pattern then _ else _) = _
    split
    · next e => rw [e, he]; rfl
    · rfl
  · simp only [Channel.becomeIdle, Channel.ended, Channel.starting, ha, hq, harm]
  · have hr : ((s.queued c j).startJob c (s.numbered j) []).rpt = s.rpt := (s.queued c j).rpt_startJob c _ []
    rw [hr]
    rfl

/-- The job of a defined class asks for it (R81). -/
theorem play_asks (hc : s.carrierClass k ≠ none) : ∃ t, exec (.play v p) s = .next t ∧
    s.Takes t c j h (x :: steps) n ∧
    s.Asks t c k (s.chan c) ((s.numbered j).startedCarrier h.repeats (x.duration.toNat * h.timeUnit.clocks)) ∧
    t.rpt = s.rpt.taking (startReports s c (s.numbered j) ++ firstMark s c (s.numbered j) x) ∧
    s.Answered t v (.play p) (halfBytes s.allocatedNumber ++ [0x00#8, 0x00#8])
      [.patterns, .channels, .jobCounter, .carriers, .outputs, .reports] := by
  have hdec := State.playEffect_decides (j := j) (.inl hst) ((s.chan c).preemptedBy j)
  rw [hq, insertJob_nil] at hdec
  obtain ⟨t, ht, htu, hans⟩ := play_answered hx hp (State.playRefusal_of_working (.inl hst) (by simp [hq]) he) hdec
  have hwork := works_decideHead c [s.numbered j] (s.queued c j) (by rw [s.chan_queued_same c j, hq]; rfl)
  obtain ⟨u, e, hu, hcarb, hptab⟩ := State.decideHead_asks (s := s.queued c j) (c := c) (j := s.numbered j) [] hn
    (s.entry_queued_pattern c he) hk hc
  obtain ⟨ch, hr⟩ := u.alone_request c k
  have halone := hu.trans hr
  rw [List.append_nil] at halone
  rw [e] at hwork htu hans
  have hqueue : ((u.request c k).chan c).queue = [] := by
    have hact : (u.chan c).active = some ((s.numbered j).startedCarrier h.repeats (x.duration.toNat * h.timeUnit.clocks)) := by rw [hu.own]; rfl
    rw [(State.Sound.chan_request hact k).2.2.2, hu.own]
    rfl
  have hasks : s.Asks t c k (s.chan c) ((s.numbered j).startedCarrier h.repeats (x.duration.toNat * h.timeUnit.clocks)) := by
    obtain ⟨l, rfl⟩ := htu
    refine State.Asks.withLink (State.asks_request (s := s) (u := u) (a := (s.numbered j).startedCarrier h.repeats (x.duration.toNat * h.timeUnit.clocks))
      hcarb ⟨.playing, ?_⟩ rfl) l
    rw [hu.own, s.chan_queued_same c j]
    simp only [Channel.startedCarrier, hq, harm]
  have hans := hans [.patterns, .channels, .jobCounter, .carriers, .outputs, .reports] (by simp)
    (hwork.keepsAllBut_play hs (by simp) (by simp) (by simp) (by simp))
  rw [Channel.position_of_absent (by simp [hqueue]), Channel.preemptedBy_idle ha] at hans
  exact ⟨t, ht, halone.takes hwork hs htu (by rw [State.ptab_request, hptab]) he, hasks, (halone.after_queued hwork hs htu).2.2.2.2.1, hans⟩

end IdleCarrier

/-! ### The statement -/

/-- Settles O20: an IDLE channel's head decision is over the job alone, an ARMED one's over the queue with it. -/
theorem playOnIdleChannel : Obligations.PlayOnIdleChannel := by
  refine ⟨?steady, ?carrier, ?armed⟩
  case steady =>
    intro s v p c j h x steps n hs hx hp hst ha hq harm he hk number length
    have hlen : (s.chan c).queue.length < 4 := by simp [hq]
    have hi : insertJob (s.numbered j) (s.chan c).queue = [s.numbered j] := by rw [hq]; rfl
    by_cases hn : j.start = .now
    · obtain ⟨t, ht, hk, hc, hr, hans⟩ := play_starts hs hx hp (.inl hst) ha hlen he hi hn hk (by simp)
      refine ⟨t, ht, hk.nextJob, hk.named, hk.others, hk.load, hk.channels, fun _ => ⟨hc.trans ?_, hr.trans ?_, hans⟩, fun hne => absurd hn hne⟩
      · rw [Channel.started, ← hq, ← harm]
        rfl
      · rw [startReports_of_now (s := s) (y := s.numbered j) hn]
        rfl
    · obtain ⟨t, ht, hk, hc, hans⟩ := play_arms hs hx hp (.inl hst) ha hlen he hi hn (by simp [hq])
      refine ⟨t, ht, hk.nextJob, hk.named, hk.others, hk.load, hk.channels, fun hnow => absurd hnow hn, fun _ => ⟨hc.trans ?_, ?_⟩⟩
      · rw [Channel.armFor, harm]
        rfl
      · rw [hq] at hans
        exact ⟨hans.link, hans.kept.mono (by simp), hans.settled⟩
  case carrier =>
    intro s v p c j h x steps n k hs hw hx hp hn hst ha hq harm he hk number started marked job
    have hstarted : startReports s c (s.numbered j) = started := startReports_of_now hn
    by_cases hc : s.carrierClass k = none
    · obtain ⟨t, ht, h1, h2, h3, h4, h5, h6, h7⟩ := play_noClass hs hx hp hn hst ha hq harm he hk hw hc
      rw [hstarted] at h6
      exact ⟨t, ht, h1, fun q _ => h2 q, h3, h4, fun _ => ⟨h5, h2 _, h6, h7⟩, fun hd => absurd hc hd, fun g hd => absurd hc hd⟩
    · obtain ⟨t, ht, hk', hask, hr, hans⟩ := play_asks hs hx hp hn hst ha hq harm he hk hc
      rw [hstarted] at hr
      refine ⟨t, ht, hk'.nextJob, hk'.others, hk'.load, hk'.channels, fun hd => absurd hd hc,
        fun _ hno => ⟨hk'.named, hr, hans, fun g hg hl => hask.allocates g hno hg hl, fun hfree => hask.waits fun g => ⟨hno g, hfree g⟩⟩,
        fun g _ hg hu => ⟨hk'.named, hr, hans, hask.joins g hg hu⟩⟩
  case armed =>
    intro s v p c j head rest a h x steps n hs hQ hN hx hp hst ha hq hlen hhead harm hnum he number length
    have hfresh := State.allocatedNumber_fresh hQ hN c
    by_cases hpri : j.priority ≤ head.priority
    · have hi : insertJob (s.numbered j) (s.chan c).queue = head :: insertJob (s.numbered j) rest := by
        rw [hq]
        exact insertJob_behind rest hpri
      obtain ⟨t, ht, hk, hc, hans⟩ := play_arms hs hx hp (.inr hst) ha hlen he hi hhead hfresh
      refine ⟨t, ht, hk.nextJob, hk.others, hk.load, hk.channels, fun _ => ⟨hk.named, hc.trans ?_, ?_⟩,
        fun hlt => absurd hpri (not_le.2 hlt), fun hlt => absurd hpri (not_le.2 hlt)⟩
      · rw [Channel.armFor, harm, armHead_again hnum, ← harm, ← hst]
        rfl
      · rw [hq, List.takeWhile_cons_of_pos (by simpa using hpri)] at hans
        exact hans
    · have hlt : head.priority < j.priority := not_le.1 hpri
      have hi : insertJob (s.numbered j) (s.chan c).queue = s.numbered j :: head :: rest := by
        rw [hq]
        exact insertJob_before rest hlt
      by_cases hn : j.start = .now
      · by_cases hk : ∀ k, x.kind ≠ .carrier k
        · obtain ⟨t, ht, hkeep, hc, hr, hans⟩ := play_starts hs hx hp (.inr hst) ha hlen he hi hn hk (hq ▸ hfresh)
          refine ⟨t, ht, hkeep.nextJob, hkeep.others, hkeep.load, hkeep.channels, fun h => absurd h hpri, fun _ h => absurd hn h,
            fun _ _ _ => ⟨hkeep.named, hc, hr.trans ?_, hans⟩⟩
          rw [startReports_of_now (s := s) (y := s.numbered j) hn]
          rfl
        · obtain ⟨k, hk⟩ : ∃ k, x.kind = .carrier k := by simpa using hk
          have hdec := State.playEffect_decides (j := j) (.inr hst) ((s.chan c).preemptedBy j)
          rw [hi] at hdec
          obtain ⟨t, ht, htu, -⟩ := play_answered hx hp (State.playRefusal_of_working (.inr (.inl hst)) hlen he) hdec
          have hw := works_decideHead c (s.numbered j :: head :: rest) (s.queued c j) (by rw [s.chan_queued_same c j, hi])
          obtain ⟨ch, made, halone, hentry⟩ := State.alone_decideHead_carrier (s := s.queued c j) (c := c) (j := s.numbered j) (head :: rest) hn
            (s.entry_queued_pattern c he) hk fun y r e hy => by cases e; exact absurd hy hhead
          obtain ⟨h1, h2, h3, -, -, h6, -⟩ := halone.after_queued hw hs htu
          refine ⟨t, ht, h1, fun q hne => ?_, h2, h3, fun h => absurd h hpri, fun _ h => absurd hn h, fun _ _ h => absurd hk (h k)⟩
          rw [h6, hentry q hne, State.entry_queued, if_neg hne]
      · obtain ⟨t, ht, hk, hc, hans⟩ := play_arms hs hx hp (.inr hst) ha hlen he hi hn hfresh
        refine ⟨t, ht, hk.nextJob, hk.others, hk.load, hk.channels, fun h => absurd h hpri, fun _ _ => ⟨hk.named, hc.trans ?_, ?_⟩,
          fun _ h => absurd h hn⟩
        · rw [Channel.armFor, harm, armHead_afresh, ← hst]
          · rfl
          · rintro _ ⟨⟩ e
            exact hfresh head (by rw [hq]; simp) (hnum.symm.trans e)
        · rw [hq, List.takeWhile_cons_of_neg (by simpa using hpri)] at hans
          exact hans

end Sys2Proof.Machine
end

section
/-! PROOFS. PLAY behind an active job (R29, R30, R68), and the statement. -/

namespace Sys2Proof.Machine

variable {s t u : State} {c d : Chan} {v : Via} {p : PlayFields} {j : Job} {a : Active} {h : Header} {steps : List Step} {n : Nat}

/-- Behind an active job nothing follows but the preemption, where there is one (R29, R30). -/
theorem State.playEffect_behind (hst : (s.chan c).state = .playing ∨ (s.chan c).state = .carrierWait ∨ (s.chan c).state = .held) (b : Bool) :
    (s.queued c j).playEffect c b = if b then (s.queued c j).preempt c else s.queued c j := by
  unfold State.playEffect
  rw [State.chan_queued_same]
  rcases hst with e | e | e <;> simp only [e]

theorem State.keepsAllBut_refl (s : State) (changed : List Block) : s.KeepsAllBut s changed :=
  ⟨fun b _ => by cases b <;> rfl, rfl, rfl⟩

section Behind

variable (hs : s.Settled) (hQ : ∀ d, (s.chan d).QueueOk) (hN : s.NumbersOk) (hx : s.Executes v (.play p)) (hp : p.Spells c j)
  (hst : (s.chan c).state = .playing ∨ (s.chan c).state = .carrierWait ∨ (s.chan c).state = .held) (ha : (s.chan c).active = some a)
  (hlen : (s.chan c).queue.length < 4) (he : s.entry j.pattern = .ready h steps n)

/-- The place of the queued job among those queued before. -/
theorem Channel.position_queued {ch : Channel} (hQ : ∀ d, (s.chan d).QueueOk) (hN : s.NumbersOk)
    (hq : ch.queue = insertJob (s.numbered j) (s.chan c).queue) :
    ch.position s.allocatedNumber = ((s.chan c).queue.takeWhile fun x => j.priority ≤ x.priority).length + 1 :=
  Channel.position_insert (j := s.numbered j) hq (State.allocatedNumber_fresh hQ hN c)

include hs hQ hN hx hp hst ha hlen he

/-- Without an effective PREEMPT the job waits (R29). -/
theorem play_waits (hno : ¬(j.flags.preempt = true ∧ a.job.priority < j.priority ∧ a.stop = none)) :
    ∃ t, exec (.play v p) s = .next t ∧ s.Takes t c j h steps n ∧
      t.chan c = { s.chan c with queue := insertJob (s.numbered j) (s.chan c).queue } ∧
      s.Answered t v (.play p) (halfBytes s.allocatedNumber
        ++ [byteOf (((s.chan c).queue.takeWhile fun x => j.priority ≤ x.priority).length + 1), 0x00#8]) [.patterns, .channels, .jobCounter] := by
  have hpre : (s.chan c).preemptedBy j = false := by rw [← Bool.not_eq_true, Channel.preemptedBy_iff ha]; exact hno
  have heff := State.playEffect_behind (j := j) hst ((s.chan c).preemptedBy j)
  rw [hpre, if_neg Bool.false_ne_true, ← hpre] at heff
  obtain ⟨t, ht, htu, hans⟩ := play_answered hx hp (State.playRefusal_of_working (.inr (.inr hst)) hlen he) heff
  have halone := State.Alone.refl (s.queued c j) c
  rw [s.chan_queued_same c j] at halone
  have hans := hans [.patterns, .channels, .jobCounter] (by simp)
    (by rw [State.settle_of_settled _ (hs.queued c j)]; exact State.keepsAllBut_refl _ _)
  rw [hpre, Channel.position_queued hQ hN (by rw [s.chan_queued_same c j])] at hans
  have hw := Works.refl c (s.queued c j)
  exact ⟨t, ht, halone.takes hw hs htu rfl he, (halone.after_queued hw hs htu).2.2.2.1, hans⟩

variable (hpre : j.flags.preempt = true ∧ a.job.priority < j.priority ∧ a.stop = none)

include hpre

/-- A PLAYING channel's job is to end at its step end (R68). -/
theorem play_preempts_playing (hplay : (s.chan c).state = .playing) :
    ∃ t, exec (.play v p) s = .next t ∧ s.Takes t c j h steps n ∧
      t.chan c = { s.chan c with
        queue := insertJob (s.numbered j) (s.chan c).queue, active := some { a with stop := some ⟨.stepEnd, .preempted⟩ } } ∧
      s.Answered t v (.play p) (halfBytes s.allocatedNumber
        ++ [byteOf (((s.chan c).queue.takeWhile fun x => j.priority ≤ x.priority).length + 1), 0x01#8]) [.patterns, .channels, .jobCounter] := by
  have hb := (Channel.preemptedBy_iff ha).2 hpre
  have heff := State.playEffect_behind (j := j) hst ((s.chan c).preemptedBy j)
  have e : (s.queued c j).preempt c = (s.queued c j).modActive c Active.preempt := by
    rw [State.preempt, s.chan_queued_same c j]
    exact if_pos hplay
  rw [hb, if_pos rfl, e, ← hb] at heff
  obtain ⟨t, ht, htu, hans⟩ := play_answered hx hp (State.playRefusal_of_working (.inr (.inr hst)) hlen he) heff
  have halone := State.Alone.modActive (s.queued c j) c Active.preempt
  have hw : Works c (s.queued c j) ((s.queued c j).modActive c Active.preempt) := works_modActive c _ _ fun _ => rfl
  rw [s.chan_queued_same c j] at halone
  have hline : ((s.queued c j).modActive c Active.preempt).drivenLevel c = s.drivenLevel c := by
    rw [← s.drivenLevel_queued c j c]
    refine State.drivenLevel_of_alike ?_ ?_ ?_ (fun _ => rfl) fun _ => rfl <;> rw [halone.own, s.chan_queued_same c j]
    simp [ha, Active.preempt]
  have hans := hans [.patterns, .channels, .jobCounter] (by simp)
    (hw.keepsAllBut_play hs (by simp) (fun _ => rfl) (fun _ => ⟨hline, rfl, fun d hd => (halone.others d hd).trans (s.chan_queued_other j hd)⟩)
      fun _ => halone.outbox (hs.queued c j))
  rw [hb, Channel.position_queued (c := c) hQ hN (by rw [halone.own])] at hans
  refine ⟨t, ht, halone.takes hw hs htu rfl he, (halone.after_queued hw hs htu).2.2.2.1.trans ?_, hans⟩
  rw [ha]
  rfl

omit hs hQ hN in
/-- In CARRIER_WAIT and in HELD the job ends PREEMPTED in the same event (R68): up to what the channel does next. -/
theorem play_preempts_at_once (hplay : (s.chan c).state ≠ .playing) :
    ∃ t, exec (.play v p) s = .next t ∧ (∃ l, t = { ((s.queued c j).finishJob c .preempted).settle with link := l }) ∧
      ∀ changed, [.patterns, .channels, .jobCounter] ⊆ changed →
        (s.queued c j).KeepsAllBut ((s.queued c j).finishJob c .preempted).settle changed →
        s.Answered t v (.play p) (halfBytes s.allocatedNumber
          ++ [byteOf ((((s.queued c j).finishJob c .preempted).chan c).position s.allocatedNumber), 0x01#8]) changed := by
  have hb := (Channel.preemptedBy_iff ha).2 hpre
  have heff := State.playEffect_behind (j := j) hst ((s.chan c).preemptedBy j)
  have e : (s.queued c j).preempt c = (s.queued c j).finishJob c .preempted := by
    rw [State.preempt, s.chan_queued_same c j]
    exact if_neg hplay
  rw [hb, if_pos rfl, e, ← hb] at heff
  obtain ⟨t, ht, htu, hans⟩ := play_answered hx hp (State.playRefusal_of_working (.inr (.inr hst)) hlen he) heff
  rw [hb] at hans
  exact ⟨t, ht, htu, hans⟩

end Behind

/-- A reference given up after the PLAY's own was taken. -/
theorem State.entries_queued_released {q : PatId} (hu : u.ptab = ((s.queued c j).dropRef q).ptab) (i : PatId) :
    u.entry i = (if i = j.pattern then (s.entry i).addRef else s.entry i).less (if i = q then 1 else 0) := by
  have h := (State.releases_one hu).2 i
  rwa [State.entry_queued] at h

/-- The step 0 that a starting job enters: the channel alone changes, or the job ends at once, its class undefined (R50, R55). -/
theorem State.alone_startedStep (s : State) (c : Chan) (j : Job) (rest : List Job) :
    (∃ t ch made, (s.startJob c j rest).enterStep c = (t, none) ∧ s.Alone t c ch made) ∨
      (s.startJob c j rest).enterStep c = (s.startJob c j rest, some .noCarrierClass) := by
  have hs := s.alone_startJob c j rest
  have ha : ((s.startJob c j rest).chan c).active = some (j.starting (s.repeatsOf j.pattern)) := by rw [hs.own]; rfl
  unfold State.enterStep
  simp only [ha]
  split
  · exact .inl ⟨_, _, _, rfl, hs⟩
  · split
    · unfold State.enterCarrierStep
      split
      · exact .inr rfl
      · obtain ⟨ch, hr⟩ := State.alone_request _ c _
        exact .inl ⟨_, _, _, congrArg _ (ite_self none), ((hs.trans (.modActive _ c _)).trans (State.alone_markEntry _ c _ _)).trans hr⟩
    · exact .inl ⟨_, _, _, rfl, (hs.trans (.modChan _ c _)).trans (State.alone_markEntry _ c _ _)⟩

/-- The head decision changes the channel alone, whatever is queued (R23). -/
theorem State.alone_decideHead_any (s : State) (c : Chan) (q : List Job) : ∃ ch made, s.Alone (State.decideHead c q s) c ch made := by
  induction q generalizing s with
  | nil => exact ⟨_, _, .modChan s c _⟩
  | cons j rest ih =>
    by_cases hn : j.start = .now
    · rw [State.decideHead]
      simp only [hn]
      rcases s.alone_startedStep c j rest with ⟨t, ch, made, e, h⟩ | e <;> rw [e]
      · exact ⟨ch, made, h⟩
      · have hs := s.alone_startJob c j rest
        have hend := State.alone_endJob_unattached (s := s.startJob c j rest) (a := j.starting (s.repeatsOf j.pattern)) .noCarrierClass
          (by rw [hs.own]; rfl) rfl
        obtain ⟨ch, made, h⟩ := ih ((s.startJob c j rest).endJob c .noCarrierClass)
        exact ⟨ch, _, (hs.trans hend).trans h⟩
    · rw [State.decideHead_arms c rest s hn]
      exact ⟨_, _, .modChan s c _⟩

/-- Settles O21: the job waits, and where it preempts, the active job's end is fixed or comes in the same event. -/
theorem playBehindActiveJob : Obligations.PlayBehindActiveJob := by
  refine ⟨?_, ?_⟩
  · intro s v p c j a h steps n hs hQ hN hx hp hst ha hlen he number ahead preempts
    by_cases hpre : preempts
    · by_cases hplay : (s.chan c).state = .playing
      · obtain ⟨t, ht, hk, hc, hans⟩ := play_preempts_playing hs hQ hN hx hp hst ha hlen he hpre hplay
        exact ⟨t, ht, fun h => absurd hpre h, fun _ _ => ⟨hc, hk.nextJob, hk.named, hk.others, hk.load, hk.channels, hans⟩⟩
      · obtain ⟨t, ht, -⟩ := play_preempts_at_once hx hp hst ha hlen he hpre hplay
        exact ⟨t, ht, fun h => absurd hpre h, fun _ h => absurd h hplay⟩
    · obtain ⟨t, ht, hk, hc, hans⟩ := play_waits hs hQ hN hx hp hst ha hlen he hpre
      exact ⟨t, ht, fun _ => ⟨hc, hk.nextJob, hk.named, hk.others, hk.load, hk.channels, hans⟩, fun h => absurd h hpre⟩
  · intro s v p c j a h steps n hs hQ hN hW hx hp hst ha hn hlen he h1 h2 h3 number ahead
    have hplay : (s.chan c).state ≠ .playing := by rcases hst with e | e <;> rw [e] <;> exact nofun
    obtain ⟨t, ht, htu, hans⟩ := play_preempts_at_once hx hp (.inr hst) ha hlen he ⟨h1, h2, h3⟩ hplay
    have ha' : ((s.queued c j).chan c).active = some a := by rw [s.chan_queued_same c j]; exact ha
    have hw := works_finishJob c (s.queued c j) .preempted
    have hend := State.alone_endJob_unattached (s := s.queued c j) .preempted ha' hn
    have hreport : endReports (s.queued c j) c a .preempted
        = [⟨.ended, s.rpt.partTime, some c, a.job.number, byteOf a.job.pattern.val, 0x03#8⟩] := endReports_of_ne (by simp)
    refine ⟨t, ht, ?_⟩
    rcases hst with hst | hst
    · have e := State.finishJob_of_not_held (s := s.queued c j) .preempted ha' (by rw [s.chan_queued_same c j, hst]; exact nofun)
      obtain ⟨ch, made, hdec⟩ := State.alone_decideHead_any ((s.queued c j).endJob c .preempted) c ((s.queued c j).chan c).queue
      obtain ⟨h1, h2, h3, -⟩ := (hend.trans hdec).after_queued (e ▸ hw) hs (e ▸ htu)
      refine ⟨h1, h2, h3, fun h => absurd (hst.symm.trans h) nofun, fun _ hq harm hnow => ?_⟩
      have hqueue : ((s.queued c j).chan c).queue = [s.numbered j] := by rw [s.chan_queued_same c j, hq]; rfl
      rw [hqueue, State.decideHead_arms c [] _ (by exact hnow)] at e
      have halone := hend.thenChan (Channel.armFor (s.numbered j) [])
      rw [← e, hreport, s.chan_queued_same c j] at halone
      obtain ⟨-, -, -, h4, h5, h6, h7⟩ := halone.after_queued hw hs htu
      have hcarb : ((s.queued c j).finishJob c .preempted).carb
          = { s.carb with waitList := s.carb.waitList.filter fun w => w.chan ≠ c } := by
        rw [e, State.modChan_carb, (State.endJob_of_unattached .preempted ha' hn).1]
        rfl
      have hans := hans [.patterns, .channels, .jobCounter, .carriers, .outputs, .reports] (by simp)
        (hw.keepsAllBut_play hs (by simp) (by simp) (by simp) (by simp))
      rw [Channel.position_queued (c := c) hQ hN (by rw [halone.own, hq]; rfl), hq] at hans
      refine ⟨fun q => ?_, h4.trans ?_, ?_, ?_, ?_, h5, hans⟩
      · rw [h6, State.entries_queued_released (s := s) (c := c) (j := j) (by rw [e, State.modChan_ptab, State.ptab_endJob .preempted ha'])]
      · simp only [Channel.armFor, Channel.ended, harm]
        rfl
      all_goals rw [h7, hcarb]
    · have e := State.finishJob_of_held (s := s.queued c j) .preempted ha' (by rw [s.chan_queued_same c j]; exact hst)
      have halone := hend.thenChan Channel.heldWithoutJob
      rw [← e, hreport, s.chan_queued_same c j] at halone
      obtain ⟨h1, h2, h3, h4, h5, h6, -⟩ := halone.after_queued hw hs htu
      have hcarb : ((s.queued c j).finishJob c .preempted).carb = s.carb := by
        rw [e, State.modChan_carb, (State.endJob_of_unattached .preempted ha' hn).1]
        exact congrArg (fun l => { s.carb with waitList := l })
          (State.filter_waitList_of_not_waiting (s := s) (c := c) hW (by simp [hst]))
      have hans := hans [.patterns, .channels, .jobCounter, .reports] (by simp)
        (hw.keepsAllBut_play hs (by simp) (fun _ => hcarb)
          (fun _ => ⟨State.drivenLevel_of_resting (by rw [halone.own]; rfl) (.inr (.inr (.inr (by rw [halone.own]; exact hst)))) (by tauto),
            congrArg Carriers.gens hcarb, fun d hd => (halone.others d hd).trans (s.chan_queued_other j hd)⟩) (by simp))
      rw [Channel.position_queued (c := c) hQ hN (by rw [halone.own]; rfl)] at hans
      refine ⟨h1, h2, h3, fun _ => ⟨fun q => ?_, h4, h5, hans⟩, fun h => absurd (hst.symm.trans h) nofun⟩
      rw [h6, State.entries_queued_released (s := s) (c := c) (j := j) (by rw [e, State.modChan_ptab, State.ptab_endJob .preempted ha'])]

end Sys2Proof.Machine
end

section
/-! PROOFS. STOP (R62 to R66): what it does on each channel that it names, and the statements. -/

namespace Sys2Proof.Machine

variable {s t u : State} {c d : Chan} {g : GenId} {v : Via} {mask boundary flush : Byte} {w : StopWhen} {f : Bool} {a : Active} {ch : Channel}

/-! ### A gate closes away from a cycle boundary (R88) -/

/-- A channel that is no waiter has left generator `g`: the generator drains if it was the last user, and nobody is granted. -/
structure State.LeavesGate (s t : State) (c : Chan) (g : GenId) : Prop where
  others : ∀ g', g' ≠ g → t.gen g' = s.gen g'
  classes : t.carb.classes = s.carb.classes
  waitList : t.carb.waitList = s.carb.waitList
  shared : s.users g ≠ [c] → t.gen g = s.gen g
  last : ∀ k phase high, s.users g = [c] → s.gen g = .running k phase high → t.gen g = .draining k phase high

theorem State.LeavesGate.congr (h : s.LeavesGate t c g) (e : u.carb = t.carb) : s.LeavesGate u c g := by
  have hg := State.gen_congr e
  exact ⟨fun g' hne => (hg g').trans (h.others g' hne), (congrArg Carriers.classes e).trans h.classes, (congrArg Carriers.waitList e).trans h.waitList,
    fun hu => (hg g).trans (h.shared hu), fun k p b hu hr => (hg g).trans (h.last k p b hu hr)⟩

/-- No place on the wait list is that of a channel that does not wait. -/
theorem State.absent_of_not_waiting (hw : s.WaitersOk) (hst : (s.chan c).state ≠ .carrierWait) (h : u.carb.waitList = s.carb.waitList) :
    ∀ w ∈ u.carb.waitList, w.chan ≠ c := by
  rintro w hm rfl
  exact hst (hw.waiting w (h ▸ hm))

theorem State.leaveWaitList_of_absent (h : ∀ w ∈ s.carb.waitList, w.chan ≠ c) :
    s.leaveWaitList c = s.modChan c fun ch => { ch with waitTimer := none } := by
  have hf : (s.carb.waitList.filter fun w => w.chan ≠ c) = s.carb.waitList :=
    List.filter_eq_self.2 fun w hm => by simpa using h w hm
  rw [State.leaveWaitList, hf]
  rfl

/-- The users that stay when one leaves. -/
theorem State.users_detached (hu : ∀ d, (u.chan d).attachment = if d = c then none else (s.chan d).attachment) (hc : c ∈ s.users g) :
    u.users g = [] ↔ s.users g = [c] := by
  rw [State.users_eq_nil]
  constructor
  · intro h
    refine List.perm_singleton.1 (List.perm_of_nodup_nodup_toFinset_eq (s.users_nodup g) (List.nodup_singleton c) ?_)
    ext d
    simp only [List.mem_toFinset, List.mem_singleton]
    refine ⟨fun hd => by_contra fun hne => h d ?_, fun e => e ▸ hc⟩
    rw [hu, if_neg hne]
    exact State.mem_users.1 hd
  · intro h d hd
    rw [hu] at hd
    split at hd
    · cases hd
    · next hne => exact hne (by simpa [h] using State.mem_users.2 hd)

/-- A channel that is no waiter gives up what it holds at CARB, its gate closing between two cycle boundaries or with other users left. -/
theorem State.giveUpCarrier_leavesGate (hw : s.WaitersOk) (hst : (s.chan c).state ≠ .carrierWait) {x : Gate}
    (ha : (s.chan c).attachment = some ⟨g, x⟩) (hb : s.users g ≠ [c] ∨ ¬s.AtCycleEnd g) :
    s.LeavesGate (s.giveUpCarrier c) c g ∧ ∀ d, d ≠ c → (s.giveUpCarrier c).chan d = s.chan d := by
  have ha' : ((s.modChan c fun ch => { ch with waitTimer := none }).chan c).attachment = some ⟨g, x⟩ := by
    rw [State.chan_modChan, if_pos rfl]
    exact ha
  rw [State.giveUpCarrier, State.leaveWaitList_of_absent (State.absent_of_not_waiting hw hst rfl), State.detach, ha']
  dsimp only
  generalize hu : ((s.modChan c fun ch => { ch with waitTimer := none }).modActive c fun a => { a with attach := none }) = u
  have hcarb : u.carb = s.carb := by rw [← hu]; rfl
  have hother : ∀ d, d ≠ c → u.chan d = s.chan d := fun d hd => by rw [← hu]; simp [hd]
  have hatt : ∀ d, (u.chan d).attachment = if d = c then none else (s.chan d).attachment := by
    intro d
    by_cases e : d = c
    · rw [e, if_pos rfl, ← hu, State.chan_modActive, if_pos rfl]
      exact Channel.unattached_attachment _
    · rw [hother d e, if_neg e]
  rw [if_congr (State.users_detached hatt (State.mem_users.2 (by rw [ha]; rfl))) rfl rfl]
  split
  next hlast =>
    have hb' : ¬u.AtCycleEnd g := by
      rw [State.atCycleEnd_congr (State.gen_congr hcarb g) (congrArg Carriers.classes hcarb)]
      exact hb.resolve_left fun h => h hlast
    by_cases hr : ∃ k phase high, u.gen g = .running k phase high
    · obtain ⟨k, phase, high, hr⟩ := hr
      rw [State.lastUserLeft_between hr hb']
      refine ⟨⟨fun g' hne => ?_, ?_, ?_, fun h => absurd hlast h, fun k' p' b' _ h => ?_⟩, hother⟩
      · rw [State.gen_setGen, if_neg hne, State.gen_congr hcarb]
      · rw [State.setGen_classes, hcarb]
      · rw [State.setGen_waitList, hcarb]
      · rw [← State.gen_congr hcarb, hr] at h
        cases h
        rw [State.gen_setGen, if_pos rfl]
    · have e : u.lastUserLeft g = u := by
        unfold State.lastUserLeft
        cases h : u.gen g with
        | running k p b => exact absurd ⟨k, p, b, h⟩ hr
        | _ => rfl
      rw [e]
      exact ⟨⟨fun g' _ => State.gen_congr hcarb g', by rw [hcarb], by rw [hcarb], fun _ => State.gen_congr hcarb g,
        fun k p b _ h => absurd ⟨k, p, b, (State.gen_congr hcarb g).trans h⟩ hr⟩, hother⟩
  next => exact ⟨⟨fun g' _ => State.gen_congr hcarb g', by rw [hcarb], by rw [hcarb], fun _ => State.gen_congr hcarb g,
        fun k p b h => absurd h ‹_›⟩, hother⟩

/-! ### STOP on one channel -/

/-- A channel whose place on the wait list is given up ends its job as it would with the place. -/
theorem State.finishJob_leaveWaitList (ha : (s.chan c).active = some a) (o : JobOutcome) : (s.leaveWaitList c).finishJob c o = s.finishJob c o := by
  have hg : (s.leaveWaitList c).giveUpCarrier c = s.giveUpCarrier c := by
    have e : (s.leaveWaitList c).leaveWaitList c = s.leaveWaitList c := by
      simp [State.leaveWaitList, State.setWaitList, State.modChan, State.setChan, State.chan]
    rw [State.giveUpCarrier, e, State.giveUpCarrier]
  have e : (s.leaveWaitList c).endJob c o = s.endJob c o := by
    have ha' : ((s.leaveWaitList c).chan c).active = some a := by rw [State.chan_leaveWaitList, if_pos rfl, ha]
    simp only [State.endJob, ha, ha', hg]
  rw [State.finishJob, e, State.finishJob]

theorem Channel.stopOutcome_byte (ha : ch.active = some a) :
    ch.stopOutcome.byte = match a.stop with | some p => p.outcome.outcome.byte | none => 0x02#8 := by
  rw [Channel.stopOutcome, ha]
  cases h : a.stop with
  | none => simp [Active.stopOutcome, h]; rfl
  | some p => simp [Active.stopOutcome, h]

theorem Channel.stopOutcome_ne_completed (ha : ch.active = some a) : ch.stopOutcome ≠ .completed := by
  rw [Channel.stopOutcome, ha]
  cases h : a.stop with
  | none => simp [Active.stopOutcome, h]
  | some p => cases hp : p.outcome <;> simp [Active.stopOutcome, h, hp, FixedOutcome.outcome]

theorem ownerStop_eq (hm : mask ≠ 0x00#8) (hw : w.Spelled boundary) (hf : flag? flush = some f) : ownerStop mask boundary flush s
    = answerOk ((s.withdrawWaiters (maskChans mask)).forEach (maskChans mask) (State.stopChannel s.chan w f))
      [maskOf fun c => mask.getLsbD c.val && (s.chan c).stopReaches, byteOf (if f then s.flushCount (maskChans mask) else 0)] := by
  rw [ownerStop, hw.stopWhen?, hf]
  exact if_neg hm

theorem ownerStop_one (hmask : maskChans mask = [c]) (hw : w.Spelled boundary) (hf : flag? flush = some f)
    (hst : (s.chan c).state.ignoresStop = false) (ha : (s.chan c).active = some a) : ownerStop mask boundary flush s
    = answerOk (State.stopChannel s.chan w f c (s.withdrawWaiters [c])) [mask, byteOf (if f then (s.chan c).queue.length else 0)] := by
  rw [ownerStop_eq (ne_zero_of_maskChans hmask) hw hf, maskOf_single hmask (by simp [Channel.stopReaches, hst, ha]), hmask, State.forEach_singleton]
  simp [State.flushCount, hst]

/-- A STOP that ends the one named channel's job at once, without flush. -/
theorem State.stopChannel_ends (ha : (s.chan c).active = some a) (hst : (s.chan c).state.ignoresStop = false) (h : (s.chan c).stopsAtOnce w = true) :
    State.stopChannel s.chan w false c (s.withdrawWaiters [c]) = s.finishJob c (s.chan c).stopOutcome := by
  have e : State.stopChannel s.chan w false c (s.withdrawWaiters [c]) = (s.withdrawWaiters [c]).finishJob c (s.chan c).stopOutcome := by
    simp [State.stopChannel, State.stopJob, State.afterStop, State.finishJob, hst, h]
  rw [e]
  by_cases hc : (s.chan c).state = .carrierWait
  · have hwd : s.withdrawWaiters [c] = s.leaveWaitList c := by simp [State.withdrawWaiters, hc]
    rw [hwd, State.finishJob_leaveWaitList ha]
  · rw [State.withdrawWaiters_of_none (by simpa using hc)]

/-- A STOP without flush becomes the pending stop of a PLAYING channel's job, or strengthens it (R63). -/
def Channel.stopSet (w : StopWhen) (ch : Channel) : Channel :=
  if ch.state = .playing then { ch with active := ch.active.map fun a => { a with stop := some (strengthen a.stop w) } } else ch

theorem State.stopChannel_sets {before : Chan → Channel} (hb : before c = s.chan c) (h : (s.chan c).stopsAtOnce w = false) :
    State.stopChannel before w false c s = s.modChan c (Channel.stopSet w) := by
  have hself : (s.chan c).state ≠ .playing → s.modChan c (Channel.stopSet w) = s := fun hne => State.modChan_self (if_neg hne)
  unfold State.stopChannel
  rw [hb]
  split
  · next hi =>
    refine (hself fun e => ?_).symm
    rw [e] at hi
    cases hi
  · simp only [State.stopJob, State.afterStop, h, Bool.false_eq_true, if_false, Bool.false_and]
    split
    · next hp =>
      simp only [State.modActive, State.modChan, Channel.stopSet, if_pos hp]
    · next hp => exact (hself hp).symm

/-! ### STOP at a boundary (R63) -/

theorem strengthen_eq (hn : w ≠ .now) (old : Option PendingStop) : strengthen old w = match old with
    | none => ⟨w, .stopped⟩
    | some p => if p.boundary = .passEnd then ⟨w, p.outcome⟩ else p := by
  cases old with
  | none => rfl
  | some p =>
    obtain ⟨b, o⟩ := p
    cases b <;> cases w <;> simp [strengthen, StopWhen.strength] at hn ⊢

theorem Channel.stopsAtOnce_false (hn : w ≠ .now) (hc : ch.state ≠ .carrierWait) (hh : ch.state = .held → ch.active = none) :
    ch.stopsAtOnce w = false := by
  unfold Channel.stopsAtOnce
  split
  · rfl
  · next ha =>
    split
    · next e => exact absurd e hc
    · next e => exact absurd (hh e) (by simp [ha])
    · simp [hn]
    · rfl

/-- A pending stop that is set or strengthened moves no line. -/
theorem State.drivenLevel_of_stopSet (h : t.chan c = s.chan c ∨ t.chan c = (s.chan c).stopSet w) (hp : t.ptab = s.ptab) (hg : t.carb = s.carb) :
    t.drivenLevel c = s.drivenLevel c := by
  refine State.drivenLevel_of_alike ?_ ?_ ?_ (fun p => by rw [State.entry_congr hp]) fun g => by rw [State.gen_congr hg]
  all_goals
    rcases h with e | e
    · rw [e]
    · rw [e, Channel.stopSet]
      split
      · cases ha : (s.chan c).active <;> simp
      · rfl

theorem Channel.stopReaches_eq (ch : Channel) :
    ch.stopReaches = (decide (ch.state ≠ .off ∧ ch.state ≠ .safe ∧ ch.state ≠ .fault) && ch.active.isSome) := by
  rw [Channel.stopReaches, ChState.ignoresStop, ← decide_not]
  simp only [not_or, ne_eq]

/-- Settles O25: every named channel has its turn, and finds its record as the STOP found it. -/
theorem stopSetsPendingStops : Obligations.StopSetsPendingStops := by
  intro s v mask boundary w hs hx hm hw hn hnamed
  have hi : Instr.request (.stop v mask boundary 0x00#8) = some (v, .stop mask boundary 0x00#8) := rfl
  obtain ⟨t, ht⟩ := exec_next hi trivial hx
  have hown := ownerStop_eq (s := s) (flush := 0x00#8) hm hw rfl
  rw [State.withdrawWaiters_of_none fun c hc => (hnamed c (mem_maskChans.1 hc)).1] at hown
  simp only [Channel.stopReaches_eq] at hown
  obtain ⟨-, ⟨chans, n, hu⟩, hch⟩ := State.forEach_induction (s := s) (f := State.stopChannel s.chan w false)
    (P := fun cs u => (∀ c ∈ cs, c ∈ maskChans mask) ∧ (∃ chans n, u = { s with chans := chans, choices := n }) ∧
      ∀ c, u.chan c = if c ∈ maskChans mask ∧ c ∉ cs then (s.chan c).stopSet w else s.chan c)
    (maskChans_nodup mask)
    (fun cs n hp => ⟨fun c => hp.mem_iff.1, ⟨s.chans, n, rfl⟩, fun c => (if_neg fun h => h.2 (hp.mem_iff.2 h.1)).symm⟩)
    (by
      rintro c cs u hnd ⟨hsub, ⟨chans, n, rfl⟩, hu⟩
      have hc := hu c
      rw [if_neg (by simp)] at hc
      have hmem := hsub c List.mem_cons_self
      obtain ⟨h1, h2⟩ := hnamed c (mem_maskChans.1 hmem)
      rw [State.stopChannel_sets hc.symm (Channel.stopsAtOnce_false hn (by rw [hc]; exact h1) (by rw [hc]; exact h2))]
      refine ⟨fun d hd => hsub d (List.mem_cons_of_mem c hd), ⟨_, n, rfl⟩, fun d => ?_⟩
      rw [State.chan_modChan]
      by_cases hd : d = c
      · subst hd
        rw [if_pos rfl, if_pos ⟨hmem, (List.nodup_cons.1 hnd).1⟩, hc]
      · rw [if_neg hd, hu]
        simp [hd])
  simp only [List.not_mem_nil, not_false_eq_true, and_true] at hch
  generalize s.forEach (maskChans mask) (State.stopChannel s.chan w false) = u at hown hu hch
  subst hu
  obtain ⟨rfl, hans⟩ := answered_of_exec hi trivial hx ht hown rfl
  refine ⟨_, ht, fun c => ?_, ?_⟩
  · refine ((State.chan_settle _ c).trans (hch c)).trans ?_
    by_cases hc : mask.getLsbD c.val = true
    · simp only [if_pos (mem_maskChans.2 hc), Channel.stopSet, strengthen_eq hn, hc, true_and] <;> rfl
    · rw [if_neg (mt mem_maskChans.1 hc), if_neg fun h => hc h.1]
  · refine hans [.channels, .choices] (hs.keepsAllBut rfl rfl (fun b hb _ _ _ => ?_) (fun _ c => ?_) (fun _ => ⟨rfl, hs.outbox⟩) (by simp))
    · cases b <;> first | rfl | simp at hb
    · refine State.drivenLevel_of_stopSet (w := w) ?_ rfl rfl
      rw [hch]
      split
      exacts [.inr rfl, .inl rfl]

end Sys2Proof.Machine
end

section
/-! PROOFS. STOP that ends a job at once (R42, R64, R66), and the statement. -/

namespace Sys2Proof.Machine

variable {s t u : State} {c d : Chan} {g : GenId} {v : Via} {mask boundary : Byte} {w : StopWhen} {a : Active} {ch : Channel}

/-- The jobs of a channel end with it: the active one, then its queue from the head on (R42, R104). -/
theorem State.releases_endJob_dropAll (o : JobOutcome) (r : DropReason) (ha : (s.chan c).active = some a) :
    s.Releases ((s.endJob c o).dropAll c r) ((s.chan c).naming ·) := by
  refine (s.releases_dropRefs (s.chan c).patterns).congr ?_ (s.chan c).count_patterns
  rw [State.ptab_dropAll, State.chan_endJob_same o ha, Channel.patterns, ha]
  have h := State.ptab_foldl_dropRef id ((s.chan c).queue.map Job.pattern) (State.ptab_endJob o ha)
  rw [List.map_id] at h
  exact h

/-- The ENDED report of a job that a STOP ends. -/
theorem endReports_stop (ha : (s.chan c).active = some a) : endReports u c a (s.chan c).stopOutcome
    = [⟨.ended, u.rpt.partTime, some c, a.job.number, byteOf a.job.pattern.val,
        match a.stop with | some p => p.outcome.outcome.byte | none => 0x02#8⟩] := by
  rw [endReports_of_ne (Channel.stopOutcome_ne_completed ha)]
  exact congrArg (fun y => [(⟨.ended, u.rpt.partTime, some c, a.job.number, byteOf a.job.pattern.val, y⟩ : Report)]) (Channel.stopOutcome_byte ha)

theorem Channel.stopsAtOnce_of_waiting (ha : ch.active = some a) (hst : ch.state = .carrierWait ∨ ch.state = .held) : ch.stopsAtOnce w = true := by
  rcases hst with e | e <;> simp [Channel.stopsAtOnce, ha, e]

theorem Channel.stopsAtOnce_playing (ha : ch.active = some a) (hst : ch.state = .playing) :
    ch.stopsAtOnce .now = decide (a.attach.map Attachment.gate ≠ some .opened) := by
  simp [Channel.stopsAtOnce, ha, hst]

/-- STOP NOW with flush on a PLAYING channel without an attachment: its job ends, its queue is dropped, and it is IDLE. -/
theorem State.alone_stopFlush (hs : s.WaitersOk) (hst : (s.chan c).state = .playing) (ha : (s.chan c).active = some a) (hn : a.attach = none) :
    s.Alone (State.stopChannel s.chan .now true c s) c (s.chan c).endedIdle (endReports s c a (s.chan c).stopOutcome
        ++ (s.chan c).queue.map fun j => ⟨.dropped, s.rpt.partTime, some c, j.number, byteOf j.pattern.val, 0x02#8⟩) ∧
      s.Releases (State.stopChannel s.chan .now true c s) ((s.chan c).naming ·) ∧ (State.stopChannel s.chan .now true c s).carb = s.carb := by
  have hat : (s.chan c).stopsAtOnce .now = true := by rw [Channel.stopsAtOnce_playing ha hst, hn]; rfl
  have e : State.stopChannel s.chan .now true c s = ((s.endJob c (s.chan c).stopOutcome).dropAll c .flushed).afterEnd c := by
    simp [State.stopChannel, State.stopJob, State.afterStop, hat, hst, ChState.ignoresStop]
  have hend := State.alone_endJob_unattached (s.chan c).stopOutcome ha hn
  obtain ⟨armed, hdrop⟩ := (s.endJob c (s.chan c).stopOutcome).alone_dropAll c .flushed
  have halone := hend.trans hdrop
  have e' : ((s.endJob c (s.chan c).stopOutcome).dropAll c .flushed).afterEnd c
      = ((s.endJob c (s.chan c).stopOutcome).dropAll c .flushed).modChan c Channel.becomeIdle := by
    have hq : (((s.endJob c (s.chan c).stopOutcome).dropAll c .flushed).chan c).queue = [] := by rw [hdrop.own]
    have hst' : (((s.endJob c (s.chan c).stopOutcome).dropAll c .flushed).chan c).state ≠ .held := by
      rw [hdrop.own, hend.own]
      exact fun h => absurd (hst.symm.trans h) nofun
    rw [State.afterEnd, if_neg hst', State.headDecision, hq, State.decideHead_nil]
  rw [e, e']
  refine ⟨?_, (State.releases_endJob_dropAll _ .flushed ha).congr (State.modChan_ptab ..) fun _ => rfl, ?_⟩
  · have h := halone.thenChan Channel.becomeIdle
    rw [hend.own, hend.rpt] at h
    exact h
  · rw [State.modChan_carb, ((s.endJob c (s.chan c).stopOutcome).dropAll_eq c .flushed).2.2.1, (State.endJob_of_unattached _ ha hn).1,
      State.filter_waitList_of_not_waiting hs (by simp [hst])]

theorem strengthen_now (old : Option PendingStop) :
    strengthen old .now = ⟨.now, match old with | some p => p.outcome | none => .stopped⟩ := by
  cases old with
  | none => rfl
  | some p =>
    obtain ⟨b, o⟩ := p
    cases b <;> simp [strengthen, StopWhen.strength]

/-- What a STOP without flush comes to that ends the one named channel's job at once. -/
theorem stop_ends (hx : s.Executes v (.stop mask boundary 0x00#8)) (hw : w.Spelled boundary) (hmask : maskChans mask = [c])
    (ha : (s.chan c).active = some a) (hst : (s.chan c).state.ignoresStop = false) (hat : (s.chan c).stopsAtOnce w = true)
    (ht : exec (.stop v mask boundary 0x00#8) s = .next t) :
    (∃ l, t = { (s.finishJob c (s.chan c).stopOutcome).settle with link := l }) ∧
      ∀ changed, s.KeepsAllBut (s.finishJob c (s.chan c).stopOutcome).settle (.link :: changed) →
        s.Answered t v (.stop mask boundary 0x00#8) [mask, 0x00#8] changed := by
  have hown := ownerStop_one (s := s) (flush := 0x00#8) hmask hw rfl hst ha
  rw [State.stopChannel_ends ha hst hat] at hown
  obtain ⟨h, hans⟩ := answered_of_exec (i := .stop v mask boundary 0x00#8) rfl trivial hx ht hown (works_finishJob c s _).link
  exact ⟨⟨_, h⟩, hans⟩

/-- A job ends with its gate closing between two cycle boundaries, or with other users left, and nothing queued (R64, R88). -/
theorem State.finishJob_atGate (o : JobOutcome) (hw : s.WaitersOk) (hst : (s.chan c).state = .playing) (ha : (s.chan c).active = some a) {x : Gate}
    (hat : a.attach = some ⟨g, x⟩) (hb : s.users g ≠ [c] ∨ ¬s.AtCycleEnd g) (hq : (s.chan c).queue = []) :
    s.Alone (s.finishJob c o) c (s.chan c).endedIdle (endReports s c a o) ∧ s.LeavesGate (s.finishJob c o) c g := by
  obtain ⟨hleave, hothers⟩ := State.giveUpCarrier_leavesGate hw (c := c) (g := g) (x := x) (by simp [hst]) (by simp [Channel.attachment, ha, hat]) hb
  rw [State.finishJob_idle o ha (by simp [hst]) hq]
  exact ⟨(State.alone_endJob o ha hothers).thenChan Channel.becomeIdle, hleave.congr (by rw [State.modChan_carb, State.carb_endJob o ha])⟩

/-- Settles O26: the job ends at once, or its stop is pending at an open gate. -/
theorem stopNowWithFlush : Obligations.StopNowWithFlush := by
  refine ⟨?flush, ?single⟩
  case flush =>
    intro s v mask c a hs hw hx hmask hst ha hn
    obtain ⟨t, ht⟩ := exec_next (i := .stop v mask 0x03#8 0x01#8) rfl trivial hx
    have hown := ownerStop_one (s := s) (flush := 0x01#8) (w := .now) (boundary := 0x03#8) hmask rfl rfl (by rw [hst]; rfl) ha
    rw [State.withdrawWaiters_of_none (by simp [hst]), if_pos rfl] at hown
    obtain ⟨halone, hrel, hcarb⟩ := State.alone_stopFlush hw hst ha hn
    rw [endReports_stop ha] at halone
    have hworks := works_stopChannel s.chan .now true c s
    obtain ⟨rfl, hans⟩ := answered_of_exec (i := .stop v mask 0x03#8 0x01#8) rfl trivial hx ht hown hworks.link
    exact ⟨_, ht, halone.chan, halone.keepsChannels, hrel.settle, halone.taking hs,
      hans _ (hworks.keepsAllBut hs (by simp) (by simp) (fun _ => hcarb) (by simp) (by simp))⟩
  case single =>
    intro s v mask boundary w c a hs hwait hx hw hmask ha ended idle gives
    obtain ⟨t, ht⟩ := exec_next (i := .stop v mask boundary 0x00#8) rfl trivial hx
    have hworks := works_finishJob c s (s.chan c).stopOutcome
    have hreport : endReports s c a (s.chan c).stopOutcome = [ended] := endReports_stop ha
    refine ⟨t, ht, fun hst hn hq => ?waiting, fun hst hn => ?held, fun g hst hnow => ?playing⟩
    case waiting =>
      obtain ⟨⟨l, rfl⟩, hans⟩ := stop_ends hx hw hmask ha (by rw [hst]; rfl) (Channel.stopsAtOnce_of_waiting ha (.inl hst)) ht
      have hne : (s.chan c).state ≠ .held := by simp [hst]
      have halone := State.alone_finishJob_idle (s.chan c).stopOutcome ha hn hne hq
      have hcarb := State.carb_finishJob_idle (s.chan c).stopOutcome ha hn hne hq
      have hrel := State.releases_active (State.ptab_finishJob_idle (s.chan c).stopOutcome ha hne hq) ha hq
      rw [hreport] at halone
      generalize s.finishJob c (s.chan c).stopOutcome = u at *
      refine ⟨halone.chan, hrel.settle, halone.taking hs, ?_, ?_, ?_,
        halone.keepsChannels, hans _ (hworks.keepsAllBut hs (by simp) (by simp) (by simp) (by simp) (by simp))⟩
      all_goals exact (congrArg _ ((State.settle_carb _).trans hcarb)).trans rfl
    case held =>
      obtain ⟨⟨l, rfl⟩, hans⟩ := stop_ends hx hw hmask ha (by rw [hst]; rfl) (Channel.stopsAtOnce_of_waiting ha (.inr hst)) ht
      have e := State.finishJob_of_held (s.chan c).stopOutcome ha hst
      have halone := (State.alone_endJob_unattached (s.chan c).stopOutcome ha hn).thenChan Channel.heldWithoutJob
      have hcarb : (s.finishJob c (s.chan c).stopOutcome).carb = s.carb := by
        rw [e, State.modChan_carb, (State.endJob_of_unattached _ ha hn).1, State.filter_waitList_of_not_waiting hwait (by simp [hst])]
      have hrel : s.Releases (s.finishJob c (s.chan c).stopOutcome) _ :=
        State.releases_one (by rw [e, State.modChan_ptab, State.ptab_endJob _ ha])
      rw [← e, hreport] at halone
      generalize s.finishJob c (s.chan c).stopOutcome = u at *
      refine ⟨halone.chan, hrel.settle, halone.taking hs, halone.keepsChannels,
        hans _ (hworks.keepsAllBut hs (by simp) (by simp) (fun _ => hcarb) (fun _ => ?_) (by simp))⟩
      refine halone.drivenLevel hworks (congrArg Carriers.gens hcarb) (State.drivenLevel_of_resting (by rw [halone.own]; rfl) ?_ ?_)
      · exact .inr (.inr (.inr (by rw [halone.own]; exact hst)))
      · exact .inr (.inr (.inr hst))
    case playing =>
      subst hnow
      refine ⟨fun hat => ?_, fun hat hq hb => ?_⟩
      · have hno : (s.chan c).stopsAtOnce .now = false := by rw [Channel.stopsAtOnce_playing ha hst, hat]; rfl
        have hown := ownerStop_one (s := s) (flush := 0x00#8) hmask hw rfl (by rw [hst]; rfl) ha
        rw [State.withdrawWaiters_of_none (by simp [hst]), State.stopChannel_sets rfl hno] at hown
        have halone := State.Alone.modChan s c (Channel.stopSet .now)
        have hworks : Works c s (s.modChan c (Channel.stopSet .now)) := by
          rw [← State.stopChannel_sets rfl hno]
          exact works_stopChannel s.chan .now false c s
        obtain ⟨rfl, hans⟩ := answered_of_exec (i := .stop v mask boundary 0x00#8) rfl trivial hx ht hown hworks.link
        refine ⟨halone.chan.trans ?_, halone.keepsChannels, hans _ (hworks.keepsAllBut hs (by simp) (fun _ => rfl) (fun _ => rfl)
          (fun _ => halone.drivenLevel hworks rfl (State.drivenLevel_of_stopSet (.inr halone.own) rfl rfl)) fun _ => halone.outbox hs)⟩
        rw [Channel.stopSet, if_pos hst, ha]
        exact congrArg (fun p => { s.chan c with active := some { a with stop := some p } }) (strengthen_now a.stop)
      · have hat' : (s.chan c).stopsAtOnce .now = true := by rw [Channel.stopsAtOnce_playing ha hst, hat]; rfl
        obtain ⟨⟨l, rfl⟩, hans⟩ := stop_ends hx hw hmask ha (by rw [hst]; rfl) hat' ht
        have hne : (s.chan c).state ≠ .held := by simp [hst]
        obtain ⟨halone, hleave⟩ := State.finishJob_atGate (s.chan c).stopOutcome hwait hst ha hat hb hq
        have hrel := State.releases_active (State.ptab_finishJob_idle (s.chan c).stopOutcome ha hne hq) ha hq
        rw [hreport] at halone
        generalize s.finishJob c (s.chan c).stopOutcome = u at *
        obtain ⟨h1, h2, h3, h4, h5⟩ := hleave.congr (State.settle_carb _)
        exact ⟨halone.chan, hrel.settle, halone.taking hs, h1, h2, h3, h4, h5,
          halone.keepsChannels, hans _ (hworks.keepsAllBut hs (by simp) (by simp) (by simp) (by simp) (by simp))⟩

end Sys2Proof.Machine
end

section
/-! PROOFS. HOLD (R70 to R74): what a channel with a job does as it becomes HELD, and what HOLD does in each state. -/

namespace Sys2Proof.Machine

variable {s t u : State} {c d : Chan} {g : GenId} {v : Via} {mask : Byte} {a b : Active} {ch : Channel} {f : HeldFrom} {r : ResumePoint}
  {o : JobOutcome}

/-- A job at the moment at which its channel becomes HELD: detached, its step clock stopped (R72, R74). -/
def Active.held (a : Active) : Active :=
  { a with attach := none }.frozenAt

/-- A channel that has become HELD with its job, all that it held at CARB given up (R74). -/
def Channel.heldWith (f : HeldFrom) (r : Option ResumePoint) (a : Option Active) (ch : Channel) : Channel :=
  { ch with state := .held, hold := some ⟨f, r⟩, holdRequest := false, waitTimer := none, active := a }

theorem State.nextStep_congr (h : u.ptab = s.ptab) (a : Active) : u.nextStep a = s.nextStep a := by
  have e := State.entry_congr h
  simp only [State.nextStep, State.passNext, State.finalNext, e]

section HoldJob

variable (ha : (s.chan c).active = some a) (hothers : ∀ d, d ≠ c → (s.giveUpCarrier c).chan d = s.chan d)

/-- The state in which a channel has become HELD, its job yet to stay, to end or to go on (R71). -/
def State.becomesHeld (s : State) (c : Chan) (f : HeldFrom) (r : ResumePoint) : State :=
  (s.giveUpCarrier c).modChan c (Channel.becomeHeld f (some r))

include ha

theorem State.chan_becomesHeld : (s.becomesHeld c f r).chan c = (s.chan c).heldWith f (some r) (some a.held) := by
  rw [State.becomesHeld, State.chan_modChan, if_pos rfl, State.chan_giveUpCarrier_same]
  simp only [Channel.becomeHeld, Channel.unattached, ha]
  rfl

include hothers

theorem State.alone_becomesHeld (f : HeldFrom) (r : ResumePoint) :
    s.Alone (s.becomesHeld c f r) c ((s.chan c).heldWith f (some r) (some a.held)) [] := by
  refine ⟨State.chan_becomesHeld ha, fun d hd => ?_, ?_, ?_⟩
  · rw [State.becomesHeld, State.chan_modChan, if_neg hd, hothers d hd]
  · rw [State.becomesHeld, State.modChan_outbox, State.outbox_giveUpCarrier, List.map_nil, List.append_nil]
  · exact (works_giveUpCarrier c s).rpt

omit ha hothers in
theorem State.ptab_becomesHeld (s : State) (c : Chan) (f : HeldFrom) (r : ResumePoint) : (s.becomesHeld c f r).ptab = s.ptab :=
  s.ptab_giveUpCarrier c

omit hothers in
/-- With time left and no pending stop the job stays as it is (R71, R74). -/
theorem State.holdJob_eq_becomesHeld (hstop : a.stop = none) (hr : a.remaining ≠ 0) : s.holdJob c f r = s.becomesHeld c f r := by
  change (s.becomesHeld c f r).heldStep c = _
  unfold State.heldStep
  rw [State.chan_becomesHeld ha]
  have h1 : a.held.stopOutcome = none := by simp [Active.held, Active.frozenAt, Active.stopOutcome, hstop]
  simp only [Channel.heldWith, h1]
  exact if_neg hr

theorem State.holdJob_stays (hstop : a.stop = none) (hr : a.remaining ≠ 0) :
    s.Alone (s.holdJob c f r) c ((s.chan c).heldWith f (some r) (some a.held)) [] ∧ (s.holdJob c f r).carb = (s.giveUpCarrier c).carb ∧
      (s.holdJob c f r).ptab = s.ptab := by
  rw [State.holdJob_eq_becomesHeld ha hstop hr]
  exact ⟨State.alone_becomesHeld ha hothers f r, rfl, State.ptab_becomesHeld s c f r⟩

/-- The job ends as its channel becomes HELD: its outcome is fixed, or its step is complete and ends it (R66, R71). -/
theorem State.holdJob_ends (ho : a.stopOutcome = some o ∨ a.stop = none ∧ a.remaining = 0 ∧ s.nextStep a.held = .ends o)
    (habsent : ∀ w ∈ (s.giveUpCarrier c).carb.waitList, w.chan ≠ c) :
    s.Alone (s.holdJob c f r) c ((s.chan c).heldWith f none none) (endReports s c a o) ∧
      (s.holdJob c f r).carb = (s.giveUpCarrier c).carb ∧ (s.holdJob c f r).ptab = (s.dropRef a.job.pattern).ptab := by
  have hu := State.alone_becomesHeld ha hothers f r
  have hact : ((s.becomesHeld c f r).chan c).active = some a.held := by rw [hu.own]; rfl
  have e : s.holdJob c f r = ((s.becomesHeld c f r).endJob c o).modChan c Channel.heldWithoutJob := by
    have e' : s.holdJob c f r = (s.becomesHeld c f r).finishJob c o := by
      change (s.becomesHeld c f r).heldStep c = _
      unfold State.heldStep
      simp only [hact]
      have h1 : a.held.stopOutcome = a.stopOutcome := rfl
      rcases ho with h | ⟨hstop, hr, hnext⟩
      · simp only [h1, h]
      · have h2 : a.stopOutcome = none := by simp [Active.stopOutcome, hstop]
        rw [h1, h2]
        simp only
        rw [if_pos (by exact hr), State.nextStep_congr (State.ptab_becomesHeld s c f r), hnext]
    rw [e', State.finishJob_of_held o hact (by rw [hu.own]; rfl)]
  have hend := State.alone_endJob_unattached o hact rfl
  have halone := (hu.trans hend).thenChan Channel.heldWithoutJob
  rw [← e, hu.own, List.nil_append, endReports, hu.rpt] at halone
  refine ⟨halone, ?_, ?_⟩
  · rw [e, State.modChan_carb, (State.endJob_of_unattached o hact rfl).1]
    have hf : (s.giveUpCarrier c).carb.waitList.filter (fun w => w.chan ≠ c) = (s.giveUpCarrier c).carb.waitList :=
      List.filter_eq_self.2 fun w hw => by simpa using habsent w hw
    exact congrArg (fun l => { (s.giveUpCarrier c).carb with waitList := l }) hf
  · rw [e, State.modChan_ptab, State.ptab_endJob o hact]
    simp only [State.dropRef, State.setEntry, State.entry, State.ptab_becomesHeld]
    rfl

/-- A completed step is ended while HELD: the resume point is the entry of the step that follows (R71, R74). -/
theorem State.holdJob_awaits {next : Active} (hstop : a.stop = none) (hr : a.remaining = 0) (hnext : s.nextStep a.held = .goesOn next) :
    s.Alone (s.holdJob c f r) c ((s.chan c).heldWith f (some .atEntry)
        (some { next with remaining := 0, clock := .notStarted, sampleDue := false })) [] ∧
      (s.holdJob c f r).carb = (s.giveUpCarrier c).carb ∧ (s.holdJob c f r).ptab = (s.moveRef a.job.pattern next.job.pattern).ptab := by
  have hu := State.alone_becomesHeld ha hothers f r
  have hact : ((s.becomesHeld c f r).chan c).active = some a.held := by rw [hu.own]; rfl
  have e : s.holdJob c f r = ((s.becomesHeld c f r).moveRef a.job.pattern next.job.pattern).modChan c (Channel.heldAtEntry next) := by
    change (s.becomesHeld c f r).heldStep c = _
    unfold State.heldStep
    simp only [hact]
    have h1 : a.held.stopOutcome = none := by simp [Active.held, Active.frozenAt, Active.stopOutcome, hstop]
    rw [h1]
    simp only
    rw [if_pos (by exact hr), State.nextStep_congr (State.ptab_becomesHeld s c f r), hnext]
    rfl
  have halone := (hu.trans ((s.becomesHeld c f r).alone_moveRef c a.job.pattern next.job.pattern)).thenChan (Channel.heldAtEntry next)
  rw [← e, hu.own] at halone
  refine ⟨halone, ?_, ?_⟩
  · rw [e, State.modChan_carb, State.carb_moveRef]
    rfl
  · rw [e, State.modChan_ptab]
    unfold State.moveRef
    split
    · exact State.ptab_becomesHeld s c f r
    · simp only [State.addRef, State.dropRef, State.setEntry, State.entry, State.ptab_becomesHeld]

end HoldJob

end Sys2Proof.Machine
end

section
/-! PROOFS. What a HOLD of one channel comes to in each state (R70 to R74). -/

namespace Sys2Proof.Machine

variable {s t u : State} {c d : Chan} {g : GenId} {v : Via} {mask : Byte} {a : Active} {ch : Channel} {made : List Report} {i : Instr} {q : Request}
  {fields : List Byte} {o : JobOutcome}

/-! ### A command at one channel -/

/-- A command has come to `u`, in which one channel alone has changed, and is answered OK: what stands in the state after its event. -/
structure State.Commanded (s u t : State) (v : Via) (q : Request) (fields : List Byte) (c : Chan) (ch : Channel) (made : List Report) : Prop where
  state : ∃ l, t = { u.settle with link := l }
  own : u.chan c = ch
  chan : t.chan c = ch
  others : s.KeepsChannelsBut t c
  rpt : t.rpt = s.rpt.taking made
  carb : t.carb = u.carb
  ptab : t.ptab = u.ptab
  answered : ∀ changed, .channels ∈ changed → (.patterns ∉ changed → u.ptab = s.ptab) → (.carriers ∉ changed → u.carb = s.carb) →
    (.outputs ∉ changed → u.drivenLevel c = s.drivenLevel c ∧ u.carb.gens = s.carb.gens) → (.reports ∉ changed → made = []) →
    s.Answered t v q fields changed

theorem State.Alone.commanded (h : s.Alone u c ch made) (w : Works c s u) (hs : s.Settled) (hi : i.request = some (v, q)) (hq : q.Fits)
    (hx : s.Executes v q) (ht : exec i s = .next t) (ho : owner q v.tag s = answerOk u fields) : s.Commanded u t v q fields c ch made := by
  obtain ⟨rfl, hans⟩ := answered_of_exec hi hq hx ht ho w.link
  refine ⟨⟨_, rfl⟩, h.own, h.chan, h.keepsChannels, h.taking hs, State.settle_carb u, State.settle_ptab u, fun changed h1 h2 h3 h4 h5 => hans changed ?_⟩
  refine w.keepsAllBut hs (List.mem_cons_of_mem _ h1) (fun h => h2 (mt (List.mem_cons_of_mem _) h)) (fun h => h3 (mt (List.mem_cons_of_mem _) h))
    (fun ho => ?_) fun hr => ?_
  · obtain ⟨hc, hg⟩ := h4 (mt (List.mem_cons_of_mem _) ho)
    exact h.drivenLevel w hg hc
  · obtain rfl := h5 (mt (List.mem_cons_of_mem _) hr)
    exact h.outbox hs

theorem State.Commanded.gen (h : s.Commanded u t v q fields c ch made) (g : GenId) : t.gen g = u.gen g :=
  State.gen_congr h.carb g

theorem State.Commanded.entry (h : s.Commanded u t v q fields c ch made) (p : PatId) : t.entry p = u.entry p :=
  State.entry_congr h.ptab p

/-! ### HOLD -/

theorem ownerHold_acts (hmask : maskChans mask = [c]) (hst : (s.chan c).state.holdable = true) :
    ownerHold mask s = answerOk (State.holdChannel c s) [mask] := by
  rw [ownerHold, if_neg (ne_zero_of_maskChans hmask), maskOf_single hmask hst, hmask, State.forEach_singleton]

theorem ownerHold_ignored (hmask : maskChans mask = [c])
    (hst : (s.chan c).state = .held ∨ (s.chan c).state = .off ∨ (s.chan c).state = .safe ∨ (s.chan c).state = .fault) :
    ownerHold mask s = answerOk s [0x00#8] := by
  have h1 : (s.chan c).state.holdable = false := by rcases hst with e | e | e | e <;> rw [e] <;> rfl
  have h2 : State.holdChannel c s = s := by
    unfold State.holdChannel
    rcases hst with e | e | e | e <;> rw [e]
  have h3 : ∀ d : Chan, mask.getLsbD d.val = true → (s.chan d).state.holdable = false := fun d hd => by
    obtain rfl : d = c := by simpa [hmask] using mem_maskChans.2 hd
    exact h1
  rw [ownerHold, if_neg (ne_zero_of_maskChans hmask), maskOf_none h3, hmask, State.forEach_singleton, h2]

theorem State.Alone.holdCommanded (h : s.Alone (State.holdChannel c s) c ch made) (hs : s.Settled) (hmask : maskChans mask = [c])
    (hst : (s.chan c).state.holdable = true) (hx : s.Executes v (.hold mask)) (ht : exec (.hold v mask) s = .next t) :
    s.Commanded (State.holdChannel c s) t v (.hold mask) [mask] c ch made :=
  h.commanded (works_holdChannel c s) hs rfl trivial hx ht (ownerHold_acts hmask hst)

/-! ### A channel gives up what it holds at CARB -/

theorem State.giveUpCarrier_of_resting (hw : s.WaitersOk) (hst : (s.chan c).state ≠ .carrierWait) (hn : (s.chan c).attachment = none) :
    (s.giveUpCarrier c).carb = s.carb ∧ ∀ d, d ≠ c → (s.giveUpCarrier c).chan d = s.chan d := by
  rw [State.giveUpCarrier_of_unattached hn, State.leaveWaitList_of_absent (State.absent_of_not_waiting hw hst rfl)]
  exact ⟨rfl, fun d hd => by simp [hd]⟩

theorem Active.held_of_unattached (hn : a.attach = none) : a.held = a.frozenAt := by
  rw [Active.held, ← hn]

/-! ### A PLAYING channel -/

section Playing

variable (hst : (s.chan c).state = .playing) (ha : (s.chan c).active = some a)

include hst ha

theorem State.holdChannel_steady (hn : a.attach = none) : State.holdChannel c s = s.holdJob c .playing .inStep := by
  have h : (s.chan c).attachment = none := by simp [Channel.attachment, ha, hn]
  simp only [State.holdChannel, hst, h]

theorem State.holdChannel_opening (hg : a.attach = some ⟨g, .opening⟩) : State.holdChannel c s = s.holdJob c .playing .inCarrier := by
  have h : (s.chan c).attachment = some ⟨g, .opening⟩ := by simp [Channel.attachment, ha, hg]
  simp only [State.holdChannel, hst, h]

theorem State.holdChannel_opened (hg : a.attach = some ⟨g, .opened⟩) :
    State.holdChannel c s = s.modChan c fun ch => { ch with holdRequest := true } := by
  have h : (s.chan c).attachment = some ⟨g, .opened⟩ := by simp [Channel.attachment, ha, hg]
  simp only [State.holdChannel, hst, h]

end Playing

/-! ### The statement's first half -/

section Hold

variable (hs : s.Settled) (hw : s.WaitersOk) (hmask : maskChans mask = [c]) (hx : s.Executes v (.hold mask)) (ht : exec (.hold v mask) s = .next t)

include hs hmask hx ht

/-- A channel without a job is HELD at once (R70). -/
theorem hold_resting {f : HeldFrom} (hst : (s.chan c).state = .idle ∧ f = .idle ∨ (s.chan c).state = .armed ∧ f = .armed)
    (ha : (s.chan c).active = none) : s.Commanded (State.holdChannel c s) t v (.hold mask) [mask] c
      { s.chan c with state := .held, hold := some ⟨f, none⟩, holdRequest := false } [] ∧
    (State.holdChannel c s).carb = s.carb ∧ (State.holdChannel c s).ptab = s.ptab := by
  have e : State.holdChannel c s = s.modChan c (Channel.becomeHeld f none) := by
    rcases hst with ⟨h, rfl⟩ | ⟨h, rfl⟩ <;> simp only [State.holdChannel, h]
  have halone := State.Alone.modChan s c (Channel.becomeHeld f none)
  have hch : Channel.becomeHeld f none (s.chan c) = { s.chan c with state := .held, hold := some ⟨f, none⟩, holdRequest := false } := by
    simp only [Channel.becomeHeld, ha]
    rfl
  rw [← e, hch] at halone
  refine ⟨halone.holdCommanded hs hmask ?_ hx ht, by rw [e, State.modChan_carb], by rw [e, State.modChan_ptab]⟩
  rcases hst with ⟨h, -⟩ | ⟨h, -⟩ <;> rw [h] <;> rfl

/-- A channel with a job: the job stays, ends or goes to the entry of the step that follows (R66, R71 to R74). -/
theorem hold_job {f : HeldFrom} {r : ResumePoint} (hjob : State.holdChannel c s = s.holdJob c f r)
    (hable : (s.chan c).state.holdable = true) (ha : (s.chan c).active = some a)
    (hother : ∀ d, d ≠ c → (s.giveUpCarrier c).chan d = s.chan d) :
    (a.stop = none → a.remaining ≠ 0 →
      s.Commanded (s.holdJob c f r) t v (.hold mask) [mask] c ((s.chan c).heldWith f (some r) (some a.held)) [] ∧
      t.carb = (s.giveUpCarrier c).carb ∧ t.ptab = s.ptab) ∧
    (∀ o, (∀ w ∈ (s.giveUpCarrier c).carb.waitList, w.chan ≠ c) →
      a.stopOutcome = some o ∨ a.stop = none ∧ a.remaining = 0 ∧ s.nextStep a.held = .ends o →
      s.Commanded (s.holdJob c f r) t v (.hold mask) [mask] c ((s.chan c).heldWith f none none) (endReports s c a o) ∧
      t.carb = (s.giveUpCarrier c).carb ∧ s.Releases t fun q => if q = a.job.pattern then 1 else 0) ∧
    ∀ next, a.stop = none → a.remaining = 0 → s.nextStep a.held = .goesOn next →
      s.Commanded (s.holdJob c f r) t v (.hold mask) [mask] c ((s.chan c).heldWith f (some .atEntry)
        (some { next with remaining := 0, clock := .notStarted, sampleDue := false })) [] ∧
      t.carb = (s.giveUpCarrier c).carb ∧ t.ptab = (s.moveRef a.job.pattern next.job.pattern).ptab := by
  rw [← hjob]
  refine ⟨fun hstop hr => ?_, fun o habsent ho => ?_, fun next hstop hr hnext => ?_⟩
  · obtain ⟨h1, h2, h3⟩ := State.holdJob_stays (f := f) (r := r) ha hother hstop hr
    rw [← hjob] at h1 h2 h3
    have k := h1.holdCommanded hs hmask hable hx ht
    exact ⟨k, k.carb.trans h2, k.ptab.trans h3⟩
  · obtain ⟨h1, h2, h3⟩ := State.holdJob_ends (f := f) (r := r) ha hother ho habsent
    rw [← hjob] at h1 h2 h3
    have k := h1.holdCommanded hs hmask hable hx ht
    exact ⟨k, k.carb.trans h2, State.releases_one (k.ptab.trans h3)⟩
  · obtain ⟨h1, h2, h3⟩ := State.holdJob_awaits (f := f) (r := r) ha hother hstop hr hnext
    rw [← hjob] at h1 h2 h3
    have k := h1.holdCommanded hs hmask hable hx ht
    exact ⟨k, k.carb.trans h2, k.ptab.trans h3⟩

end Hold

end Sys2Proof.Machine
end

section
/-! PROOFS. What a RESUME of one channel comes to at each resume point (R75). -/

namespace Sys2Proof.Machine

variable {s t u : State} {c d : Chan} {v : Via} {mask : Byte} {a : Active} {ch : Channel} {made : List Report} {f : HeldFrom} {h : Header}
  {steps : List Step} {n : Nat} {x : Step} {k : Cls}

/-! ### The entry of a carrier step (R55) -/

section Entry

variable (ha : (s.chan c).active = some a) (he : s.entry a.job.pattern = .ready h steps n) (hx : steps[a.stepIndex]? = some x)
  (hk : x.kind = .carrier k)

include ha he hx hk

/-- A class that is undefined ends the job. -/
theorem State.enterNext_noClass (hc : s.carrierClass k = none) : s.enterNext c = s.finishJob c .noCarrierClass := by
  have hcur : s.currentStep a = some x := by rw [State.currentStep, he]; exact hx
  have e : s.enterStep c = (s, some .noCarrierClass) := by
    unfold State.enterStep
    simp only [ha, hcur, hk, State.enterCarrierStep, hc]
  rw [State.enterNext, e]

/-- A defined class is asked for. -/
theorem State.enterNext_asks (hc : s.carrierClass k ≠ none) (hstop : a.stop = none) : ∃ u, s.enterNext c = u.request c k ∧
    s.Alone u c { s.chan c with active := some (a.enterCarrier (x.duration.toNat * h.timeUnit.clocks)) } (markReports s c a x) ∧
    u.carb = s.carb ∧ u.ptab = s.ptab := by
  obtain ⟨y, hy⟩ := Option.ne_none_iff_exists'.1 hc
  have hcur : s.currentStep a = some x := by rw [State.currentStep, he]; exact hx
  have hlen : s.stepLength a.job.pattern x = x.duration.toNat * h.timeUnit.clocks := by rw [State.stepLength, State.unitClocks, he]
  have hno : a.stopOutcome = none := by simp [Active.stopOutcome, hstop]
  have e : s.enterStep c
      = (((s.modActive c (Active.enterCarrier (x.duration.toNat * h.timeUnit.clocks))).markEntry c a x).request c k, none) := by
    unfold State.enterStep
    simp only [ha, hcur, hk, State.enterCarrierStep, hy, hno, ite_self, hlen]
  have hm := State.Alone.modActive s c (Active.enterCarrier (x.duration.toNat * h.timeUnit.clocks))
  have k' := hm.trans (State.alone_markEntry _ c a x)
  rw [hm.own, List.nil_append] at k'
  simp only [ha] at k'
  exact ⟨_, by rw [State.enterNext, e], k', by rw [State.carb_markEntry, State.modActive_carb], by rw [State.ptab_markEntry, State.modActive_ptab]⟩

end Entry

/-! ### RESUME -/

theorem ownerResume_acts (hmask : maskChans mask = [c]) (hr : (s.chan c).resumable = true) :
    ownerResume mask s = answerOk (State.resumeChannel c s) [mask] := by
  rw [ownerResume, if_neg (ne_zero_of_maskChans hmask), maskOf_single hmask hr, hmask, State.forEach_singleton]

theorem ownerResume_ignored (hmask : maskChans mask = [c]) (hst : (s.chan c).state ≠ .held)
    (hr : (s.chan c).state = .playing → (s.chan c).holdRequest = false) : ownerResume mask s = answerOk s [0x00#8] := by
  have h1 : (s.chan c).resumable = false := by
    rw [← Bool.not_eq_true]
    simp only [Channel.resumable, hst, decide_false, Bool.false_or, Bool.and_eq_true, decide_eq_true_eq]
    rintro ⟨hp, hreq⟩
    simp [hr hp] at hreq
  have h2 : State.resumeChannel c s = s := by
    unfold State.resumeChannel
    split
    · next e => exact absurd e hst
    · next e => exact State.modChan_self (by rw [← hr e])
    · rfl
  have h3 : ∀ d : Chan, mask.getLsbD d.val = true → (s.chan d).resumable = false := fun d hd => by
    obtain rfl : d = c := by simpa [hmask] using mem_maskChans.2 hd
    exact h1
  rw [ownerResume, if_neg (ne_zero_of_maskChans hmask), maskOf_none h3, hmask, State.forEach_singleton, h2]

/-- The channel has left HELD, before it goes on (R75). -/
def State.leavesHeld (s : State) (c : Chan) : State :=
  s.modChan c Channel.leaveHeld

theorem State.alone_leavesHeld (s : State) (c : Chan) : s.Alone (s.leavesHeld c) c { s.chan c with state := .playing, hold := none } [] :=
  .modChan s c Channel.leaveHeld

section Held

variable (hst : (s.chan c).state = .held)

include hst

theorem State.resumeChannel_idle (hh : (s.chan c).hold = some ⟨f, none⟩) : State.resumeChannel c s
    = State.decideHead c (s.chan c).queue (s.leavesHeld c) := by
  have hq : ((s.leavesHeld c).chan c).queue = (s.chan c).queue := by rw [(s.alone_leavesHeld c).own]
  simp only [State.resumeChannel, hst, hh, Option.bind_some]
  rw [← hq]
  rfl

theorem State.resumeChannel_inStep (hh : (s.chan c).hold = some ⟨f, some .inStep⟩) : State.resumeChannel c s
    = (s.leavesHeld c).modChan c Channel.runOn := by
  simp only [State.resumeChannel, hst, hh, Option.bind_some]
  rfl

theorem State.resumeChannel_inCarrier (hh : (s.chan c).hold = some ⟨f, some .inCarrier⟩) : State.resumeChannel c s
    = (s.leavesHeld c).resumeCarrier c := by
  simp only [State.resumeChannel, hst, hh, Option.bind_some]
  rfl

theorem State.resumeChannel_atEntry (hh : (s.chan c).hold = some ⟨f, some .atEntry⟩) : State.resumeChannel c s
    = (s.leavesHeld c).enterNext c := by
  simp only [State.resumeChannel, hst, hh, Option.bind_some]
  rfl

end Held

section Carrier

variable (ha : (s.chan c).active = some a) (he : s.entry a.job.pattern = .ready h steps n) (hx : steps[a.stepIndex]? = some x)
  (hk : x.kind = .carrier k)

include ha he hx

theorem State.currentStep_leavesHeld : ((s.leavesHeld c).chan c).active = some a ∧ (s.leavesHeld c).currentStep a = some x := by
  refine ⟨by rw [(s.alone_leavesHeld c).own]; exact ha, ?_⟩
  have e : (s.leavesHeld c).entry a.job.pattern = .ready h steps n := he
  rw [State.currentStep, e]
  exact hx

include hk

/-- A held carrier step of an undefined class ends the job (R75). -/
theorem State.resume_noClass (hst : (s.chan c).state = .held)
    (hh : (s.chan c).hold = some ⟨f, some .inCarrier⟩ ∨ (s.chan c).hold = some ⟨f, some .atEntry⟩) (hc : s.carrierClass k = none) :
    State.resumeChannel c s = (s.leavesHeld c).finishJob c .noCarrierClass := by
  obtain ⟨hact, hcur⟩ := State.currentStep_leavesHeld ha he hx
  have hc' : (s.leavesHeld c).carrierClass k = none := hc
  rcases hh with hh | hh
  · rw [State.resumeChannel_inCarrier hst hh, State.resumeCarrier, hact]
    simp only [Option.bind_some, hcur, Option.map_some, hk, hc']
  · rw [State.resumeChannel_atEntry hst hh]
    exact State.enterNext_noClass (s := s.leavesHeld c) hact he hx hk hc

/-- Inside a held carrier step the class is asked for (R75). -/
theorem State.resume_inCarrier (hst : (s.chan c).state = .held) (hh : (s.chan c).hold = some ⟨f, some .inCarrier⟩)
    (hc : s.carrierClass k ≠ none) : State.resumeChannel c s = (s.leavesHeld c).request c k := by
  obtain ⟨hact, hcur⟩ := State.currentStep_leavesHeld ha he hx
  obtain ⟨y, hy⟩ := Option.ne_none_iff_exists'.1 hc
  have hc' : (s.leavesHeld c).carrierClass k = some y := hy
  rw [State.resumeChannel_inCarrier hst hh, State.resumeCarrier, hact]
  simp only [Option.bind_some, hcur, Option.map_some, hk, hc']

/-- At the entry of a carrier step the step is entered and its class asked for (R55, R75). -/
theorem State.resume_atEntry (hst : (s.chan c).state = .held) (hh : (s.chan c).hold = some ⟨f, some .atEntry⟩)
    (hc : s.carrierClass k ≠ none) (hstop : a.stop = none) : ∃ u, State.resumeChannel c s = u.request c k ∧
    s.Alone u c { s.chan c with state := .playing, hold := none, active := some (a.enterCarrier (x.duration.toNat * h.timeUnit.clocks)) }
      (markReports s c a x) ∧ u.carb = s.carb ∧ u.ptab = s.ptab := by
  obtain ⟨hact, -⟩ := State.currentStep_leavesHeld ha he hx
  obtain ⟨u, e, hu, hcarb, hptab⟩ := State.enterNext_asks (s := s.leavesHeld c) hact he hx hk hc hstop
  have k := (s.alone_leavesHeld c).trans hu
  rw [(s.alone_leavesHeld c).own] at k
  exact ⟨u, by rw [State.resumeChannel_atEntry hst hh, e], k, hcarb, hptab⟩

end Carrier

theorem State.Alone.resumeCommanded (h : s.Alone (State.resumeChannel c s) c ch made) (hs : s.Settled) (hmask : maskChans mask = [c])
    (hr : (s.chan c).resumable = true) (hx : s.Executes v (.resume mask)) (ht : exec (.resume v mask) s = .next t) :
    s.Commanded (State.resumeChannel c s) t v (.resume mask) [mask] c ch made :=
  h.commanded (works_resumeChannel c s) hs rfl trivial hx ht (ownerResume_acts hmask hr)

end Sys2Proof.Machine
end

section
/-! PROOFS. HOLD and RESUME on one channel (R70 to R75): the statement. -/

namespace Sys2Proof.Machine

variable {s t u : State} {c d : Chan} {g : GenId} {v : Via} {mask : Byte} {a : Active} {ch : Channel} {made : List Report} {o : JobOutcome}

theorem Active.stopOutcome_of_pending {p : PendingStop} (h : a.stop = some p) : a.stopOutcome = some p.outcome.outcome := by
  simp [Active.stopOutcome, h]

/-! ### A PLAYING channel at a steady step is HELD -/

section Steady

variable (hs : s.Settled) (hw : s.WaitersOk) (hmask : maskChans mask = [c]) (hx : s.Executes v (.hold mask)) (ht : exec (.hold v mask) s = .next t)
  (hst : (s.chan c).state = .playing) (ha : (s.chan c).active = some a) (hn : a.attach = none)

include hs hw hmask hx ht hst ha hn

/-- Its job ends, by its fixed outcome or by the end of its step (R66, R71). -/
theorem hold_endsJob (ho : a.stopOutcome = some o ∨ a.stop = none ∧ a.remaining = 0 ∧ s.nextStep a.held = .ends o) :
    s.Commanded (s.holdJob c .playing .inStep) t v (.hold mask) [mask] c ((s.chan c).heldWith .playing none none) (endReports s c a o) ∧
      t.carb = s.carb ∧ s.Releases t fun q => if q = a.job.pattern then 1 else 0 := by
  obtain ⟨hcarb, hother⟩ := State.giveUpCarrier_of_resting hw (c := c) (by simp [hst]) (by simp [Channel.attachment, ha, hn])
  obtain ⟨k, h1, h2⟩ := (hold_job hs hmask hx ht (State.holdChannel_steady hst ha hn) (by rw [hst]; rfl) ha hother).2.1 o
    (State.absent_of_not_waiting hw (by simp [hst]) (congrArg Carriers.waitList hcarb)) ho
  exact ⟨k, h1.trans hcarb, h2⟩

/-- Its completed step is ended, and the resume point is the entry of the step that follows (R71, R74). -/
theorem hold_goesOn {next : Active} (hstop : a.stop = none) (hr : a.remaining = 0) (hnext : s.nextStep a.held = .goesOn next) :
    s.Commanded (s.holdJob c .playing .inStep) t v (.hold mask) [mask] c ((s.chan c).heldWith .playing (some .atEntry)
        (some { next with remaining := 0, clock := .notStarted, sampleDue := false })) [] ∧
      t.carb = s.carb ∧ t.ptab = (s.moveRef a.job.pattern next.job.pattern).ptab := by
  obtain ⟨hcarb, hother⟩ := State.giveUpCarrier_of_resting hw (c := c) (by simp [hst]) (by simp [Channel.attachment, ha, hn])
  obtain ⟨k, h1, h2⟩ := (hold_job hs hmask hx ht (State.holdChannel_steady hst ha hn) (by rw [hst]; rfl) ha hother).2.2 next hstop hr hnext
  exact ⟨k, h1.trans hcarb, h2⟩

end Steady

/-! ### A HELD channel with a job goes on -/

theorem Channel.resumable_of_held {ch : Channel} (hst : ch.state = .held) : ch.resumable = true := by
  simp [Channel.resumable, hst]

section Resumed

variable {f : HeldFrom} {h : Header} {steps : List Step} {n : Nat} {x : Step} {k : Cls} (hs : s.Settled) (hmask : maskChans mask = [c])
  (hx : s.Executes v (.resume mask)) (ht : exec (.resume v mask) s = .next t) (hst : (s.chan c).state = .held) (ha : (s.chan c).active = some a)
  (hn : a.attach = none) (he : s.entry a.job.pattern = .ready h steps n) (hy : steps[a.stepIndex]? = some x)

include hs hmask hx ht hst ha he hy

/-- A steady step is entered (R50, R75). -/
theorem resume_entersSteady (hh : (s.chan c).hold = some ⟨f, some .atEntry⟩) (hk : ∀ k, x.kind ≠ .carrier k) :
    s.Commanded (State.resumeChannel c s) t v (.resume mask) [mask] c { s.chan c with
        state := .playing, hold := none, active := some (a.entered (s.chan c).config (x.duration.toNat * h.timeUnit.clocks)) }
        (markReports s c a x) ∧
      (State.resumeChannel c s).carb = s.carb ∧ (State.resumeChannel c s).ptab = s.ptab := by
  obtain ⟨hact, -⟩ := State.currentStep_leavesHeld ha he hy
  obtain ⟨hen, hcarb, hptab⟩ := State.alone_enterNext (s := s.leavesHeld c) hact he hy hk
  have halone := (s.alone_leavesHeld c).trans hen
  rw [← State.resumeChannel_atEntry hst hh, (s.alone_leavesHeld c).own] at halone
  rw [← State.resumeChannel_atEntry hst hh] at hcarb hptab
  exact ⟨halone.resumeCommanded hs hmask (Channel.resumable_of_held hst) hx ht, hcarb, hptab⟩

include hn

/-- A carrier step of an undefined class ends the job (R75). -/
theorem resume_endsNoClass (hw : s.WaitersOk) (hk : x.kind = .carrier k)
    (hh : (s.chan c).hold = some ⟨f, some .inCarrier⟩ ∨ (s.chan c).hold = some ⟨f, some .atEntry⟩) (hc : s.carrierClass k = none)
    (hq : (s.chan c).queue = []) : s.Commanded (State.resumeChannel c s) t v (.resume mask) [mask] c
        { s.chan c with state := .idle, hold := none, active := none, armed := none, holdRequest := false, waitTimer := none }
        [⟨.ended, s.rpt.partTime, some c, a.job.number, byteOf a.job.pattern.val, 0x05#8⟩] ∧
      (State.resumeChannel c s).carb = s.carb ∧ s.Releases t ((s.chan c).naming ·) := by
  obtain ⟨hact, -⟩ := State.currentStep_leavesHeld ha he hy
  have e := State.resume_noClass ha he hy hk hst hh hc
  have hown := (s.alone_leavesHeld c).own
  have hne : ((s.leavesHeld c).chan c).state ≠ .held := by rw [hown]; exact nofun
  have hq' : ((s.leavesHeld c).chan c).queue = [] := by rw [hown]; exact hq
  have halone := (s.alone_leavesHeld c).trans (State.alone_finishJob_idle .noCarrierClass hact hn hne hq')
  have hcarb := State.carb_finishJob_idle .noCarrierClass hact hn hne hq'
  have hptab := State.ptab_finishJob_idle .noCarrierClass hact hne hq'
  rw [← e, hown, List.nil_append, endReports_of_ne (by simp), Channel.endedIdle, ← hq] at halone
  have k' := halone.resumeCommanded hs hmask (Channel.resumable_of_held hst) hx ht
  refine ⟨k', ?_, State.releases_active (s := s) (k'.ptab.trans (by rw [e, hptab]; rfl)) ha hq⟩
  rw [e, hcarb]
  exact congrArg (fun l => { s.carb with waitList := l }) (State.filter_waitList_of_not_waiting (s := s) (c := c) hw (by simp [hst]))

/-- Inside a carrier step its class is asked for (R75). -/
theorem resume_asksInside (hk : x.kind = .carrier k) (hh : (s.chan c).hold = some ⟨f, some .inCarrier⟩) (hc : s.carrierClass k ≠ none) :
    s.Asks t c k { s.chan c with hold := none } a ∧ (State.resumeChannel c s).ptab = s.ptab ∧
      ∃ ch, s.Commanded (State.resumeChannel c s) t v (.resume mask) [mask] c ch [] := by
  have e := State.resume_inCarrier ha he hy hk hst hh hc
  obtain ⟨ch, hr⟩ := (s.leavesHeld c).alone_request c k
  have halone := (s.alone_leavesHeld c).trans hr
  have hasks : s.Asks ((s.leavesHeld c).request c k).settle c k { s.chan c with hold := none } a :=
    State.asks_request rfl ⟨.playing, by rw [(s.alone_leavesHeld c).own, ← ha]⟩ hn
  rw [← e] at halone hasks
  have k' := halone.resumeCommanded hs hmask (Channel.resumable_of_held hst) hx ht
  obtain ⟨l, hl⟩ := k'.state
  exact ⟨hl ▸ hasks.withLink l, by rw [e, State.ptab_request]; rfl, ch, k'⟩

/-- At the entry of a carrier step the step is entered and its class asked for (R55, R75). -/
theorem resume_asksAtEntry (hk : x.kind = .carrier k) (hh : (s.chan c).hold = some ⟨f, some .atEntry⟩) (hc : s.carrierClass k ≠ none)
    (hstop : a.stop = none) :
    s.Asks t c k { s.chan c with hold := none } (a.enterCarrier (x.duration.toNat * h.timeUnit.clocks)) ∧
      (State.resumeChannel c s).ptab = s.ptab ∧
      ∃ ch, s.Commanded (State.resumeChannel c s) t v (.resume mask) [mask] c ch (markReports s c a x) := by
  obtain ⟨u, e, hu, hcarb, hptab⟩ := State.resume_atEntry ha he hy hk hst hh hc hstop
  obtain ⟨ch, hr⟩ := u.alone_request c k
  have halone := hu.trans hr
  have hasks : s.Asks (u.request c k).settle c k { s.chan c with hold := none } (a.enterCarrier (x.duration.toNat * h.timeUnit.clocks)) :=
    State.asks_request hcarb ⟨.playing, hu.own⟩ hn
  rw [← e] at hasks
  rw [← e, List.append_nil] at halone
  have k' := halone.resumeCommanded hs hmask (Channel.resumable_of_held hst) hx ht
  obtain ⟨l, hl⟩ := k'.state
  exact ⟨hl ▸ hasks.withLink l, by rw [e, State.ptab_request, hptab], ch, k'⟩

end Resumed

/-! ### The statement -/

/-- Settles O27: state by state for HOLD and resume point by resume point for RESUME, each from what the one channel does (`hold_job`,
`State.resumeChannel_*`). -/
theorem holdAndResume : Obligations.HoldAndResume := by
  intro s v mask c hs hw hmask
  refine ⟨fun hx => ?hold, fun hx => ?resume⟩
  case hold =>
    obtain ⟨t, ht⟩ := exec_next (i := .hold v mask) rfl trivial hx
    refine ⟨t, ht, ?idle, ?steady, ?opened, ?armed, ?waiting, ?opening, ?ignored, ?ends⟩
    case idle =>
      intro hst ha
      obtain ⟨k, hcarb, hptab⟩ := hold_resting hs hmask hx ht (.inl ⟨hst, rfl⟩) ha
      exact ⟨k.chan, k.others, k.answered _ (by simp) (fun _ => hptab) (fun _ => hcarb) (by simp) (by simp)⟩
    case armed =>
      intro hst ha
      obtain ⟨k, hcarb, hptab⟩ := hold_resting hs hmask hx ht (.inr ⟨hst, rfl⟩) ha
      refine ⟨k.chan, k.others, k.answered _ (by simp) (fun _ => hptab) (fun _ => hcarb) (fun _ => ⟨?_, congrArg _ hcarb⟩) (by simp)⟩
      exact State.drivenLevel_of_resting (by rw [k.own]) (.inr (.inr (.inr (by rw [k.own])))) (.inr (.inl hst))
    case steady =>
      intro a hst ha hn hstop hr hclock
      obtain ⟨hcarb, hother⟩ := State.giveUpCarrier_of_resting hw (c := c) (by simp [hst]) (by simp [Channel.attachment, ha, hn])
      obtain ⟨k, h1, h2⟩ := (hold_job hs hmask hx ht (State.holdChannel_steady hst ha hn) (by rw [hst]; rfl) ha hother).1 hstop hr
      refine ⟨k.chan.trans ?_, k.others, k.answered _ (by simp) (fun _ => k.ptab.symm.trans h2) (fun _ => (k.carb.symm.trans h1).trans hcarb)
        (by simp) (by simp)⟩
      rw [Active.held_of_unattached hn, Active.frozenAt, if_pos hclock]
      rfl
    case opened =>
      intro a g hst ha hat
      have e := State.holdChannel_opened hst ha hat
      have halone := State.Alone.modChan s c fun ch => { ch with holdRequest := true }
      rw [← e] at halone
      have k := halone.holdCommanded hs hmask (by rw [hst]; rfl) hx ht
      refine ⟨k.chan, k.others, k.answered _ (by simp) (fun _ => by rw [e, State.modChan_ptab]) (fun _ => by rw [e, State.modChan_carb])
        (fun _ => ⟨?_, by rw [e, State.modChan_carb]⟩) (by simp)⟩
      refine State.drivenLevel_of_alike ?_ ?_ ?_ (fun p => by rw [e]; rfl) fun g => by rw [e]; rfl
      all_goals rw [k.own]
    case waiting =>
      intro a hst ha hn hstop hr hclock
      have e : s.giveUpCarrier c = s.leaveWaitList c := State.giveUpCarrier_of_unattached (by simp [Channel.attachment, ha, hn])
      have hjob : State.holdChannel c s = s.holdJob c .carrierWait .inCarrier := by simp only [State.holdChannel, hst]
      obtain ⟨k, h1, h2⟩ := (hold_job hs hmask hx ht hjob (by rw [hst]; rfl) ha fun d hd => by rw [e]; simp [hd]).1 hstop hr
      have hcarb : t.carb = { s.carb with waitList := s.carb.waitList.filter fun w => w.chan ≠ c } := by rw [h1, e]; rfl
      refine ⟨k.chan.trans ?_, by rw [hcarb], by rw [hcarb], by rw [hcarb], k.others, k.answered _ (by simp) (fun _ => k.ptab.symm.trans h2)
        (by simp) (fun _ => ⟨?_, ?_⟩) (by simp)⟩
      · rw [Active.held_of_unattached hn, Active.frozenAt, hclock]
        rfl
      · exact State.drivenLevel_of_resting (by rw [k.own]; rfl) (.inr (.inr (.inr (by rw [k.own]; rfl)))) (.inr (.inr (.inl hst)))
      · rw [← k.carb, hcarb]
    case opening =>
      intro a g hst ha hat hstop hr hclock hb
      obtain ⟨hleave, hother⟩ := State.giveUpCarrier_leavesGate hw (c := c) (g := g) (x := .opening) (by simp [hst])
        (by simp [Channel.attachment, ha, hat]) hb
      obtain ⟨k, h1, h2⟩ := (hold_job hs hmask hx ht (State.holdChannel_opening hst ha hat) (by rw [hst]; rfl) ha hother).1 hstop hr
      obtain ⟨g1, g2, g3, g4, g5⟩ := hleave.congr h1
      refine ⟨k.chan.trans ?_, g1, g2, g3, g4, g5, k.others, k.answered _ (by simp) (fun _ => k.ptab.symm.trans h2) (by simp) (by simp) (by simp)⟩
      rw [Active.held, Active.frozenAt]
      dsimp only
      rw [hclock]
      rfl
    case ignored =>
      intro hst
      exact answered_unchanged (i := .hold v mask) hs rfl trivial hx ht (ownerHold_ignored hmask hst)
    case ends =>
      intro a hst ha ends stopped
      have hstopped : ∀ p : PendingStop, stopped p = p.outcome.outcome.byte := fun ⟨_, o⟩ => by cases o <;> rfl
      have steadyEnds {o : JobOutcome} (hn : a.attach = none)
          (ho : a.stopOutcome = some o ∨ a.stop = none ∧ a.remaining = 0 ∧ s.nextStep a.held = .ends o) :
          ends o.byte [.patterns, .channels, .outputs, .reports] := by
        obtain ⟨k, h1, h2⟩ := hold_endsJob hs hw hmask hx ht hst ha hn ho
        exact ⟨k.chan, h2, k.rpt.trans (by rw [endReports_eq]), k.others, k.answered _ (by simp) (by simp) (fun _ => k.carb.symm.trans h1)
          (by simp) (by simp)⟩
      refine ⟨fun p hn hp => ?_, fun p g hat hp hb => ?_, ?_⟩
      · rw [hstopped]
        exact steadyEnds hn (.inl (Active.stopOutcome_of_pending hp))
      · obtain ⟨hleave, hother⟩ := State.giveUpCarrier_leavesGate hw (c := c) (g := g) (x := .opening) (by simp [hst])
          (by simp [Channel.attachment, ha, hat]) hb
        obtain ⟨k, h1, h2⟩ := (hold_job hs hmask hx ht (State.holdChannel_opening hst ha hat) (by rw [hst]; rfl) ha hother).2.1 _
          (State.absent_of_not_waiting hw (by simp [hst]) hleave.waitList) (.inl (Active.stopOutcome_of_pending hp))
        obtain ⟨g1, g2, g3, g4, g5⟩ := hleave.congr h1
        rw [hstopped]
        exact ⟨⟨k.chan, h2, k.rpt.trans (by rw [endReports_eq]), k.others, k.answered _ (by simp) (by simp) (by simp) (by simp) (by simp)⟩,
          g1, g2, g3, g4, g5⟩
      · intro h steps n hn hstop hr he pass last awaits
        have goes {next b : Active} (hnext : s.nextStep a.held = .goesOn next)
            (hb : { next with remaining := 0, clock := .notStarted, sampleDue := false }
              = { b with remaining := 0, clock := .notStarted, sampleDue := false }) : awaits b ∧
            t.ptab = (s.moveRef a.job.pattern next.job.pattern).ptab ∧
            ∀ changed, .channels ∈ changed → .outputs ∈ changed → (.patterns ∉ changed → t.ptab = s.ptab) →
              s.Answered t v (.hold mask) [mask] changed := by
          obtain ⟨k, h1, h2⟩ := hold_goesOn hs hw hmask hx ht hst ha hn hstop hr hnext
          exact ⟨⟨k.chan.trans (by rw [hb]; rfl), k.others⟩, h2, fun changed hc ho hp => k.answered _ hc (fun h => k.ptab.symm.trans (hp h))
            (fun _ => k.carb.symm.trans h1) (fun h => absurd ho h) fun _ => rfl⟩
        have he' : s.entry a.held.job.pattern = .ready h steps n := he
        have hheld := Active.held_of_unattached hn
        refine ⟨fun hl => ?_, fun hl hlast => ?_, fun hlast hf => ?_, fun q hlast hf => ⟨fun hq => ?_, fun h' more m hne hq => ?_⟩⟩
        · obtain ⟨h1, h2, h3⟩ := goes (b := { a with stepIndex := a.stepIndex + 1 })
            (State.nextStep_within he' (fun p hp => absurd (hstop.symm.trans hp) nofun) hl) (by rw [hheld]; rfl)
          exact ⟨h1, h3 _ (by simp) (by simp) fun _ => by rw [h2]; exact congrArg State.ptab (s.moveRef_self _)⟩
        · obtain ⟨h1, h2, h3⟩ := goes (b := { a with stepIndex := h.loopStart, passes := pass })
            (State.nextStep_wraps he' hstop hl fun k => hlast ⟨hl, k⟩) (by rw [hheld]; rfl)
          exact ⟨h1, h3 _ (by simp) (by simp) fun _ => by rw [h2]; exact congrArg State.ptab (s.moveRef_self _)⟩
        · refine steadyEnds (o := .completed) hn (.inr ⟨hstop, hr, ?_⟩)
          rw [State.nextStep_last he' hstop hlast.1 hlast.2, hf]
          rfl
        · refine steadyEnds (o := .chainMissing) hn (.inr ⟨hstop, hr, ?_⟩)
          rw [State.nextStep_last he' hstop hlast.1 hlast.2, hf, State.finalNext_missing hq]
        · obtain ⟨h1, h2, h3⟩ := goes (next := a.held.chained q h')
            (b := { a with job := { a.job with pattern := q }, stepIndex := 0, passes := 0x00#8, repeats := h'.repeats })
            (by rw [State.nextStep_last he' hstop hlast.1 hlast.2, hf, State.finalNext_chains hq]) (by rw [hheld]; rfl)
          have hent : ∀ p, t.entry p = _ := fun p => (State.entry_congr h2 p).trans (State.entry_moveRef hne p)
          refine ⟨h1, ?_, ?_, fun p hp hp' => ?_, ?_, h3 _ (by simp) (by simp) (by simp)⟩
          · rw [hent, if_pos rfl, hq]
            rfl
          · rw [hent, if_neg (Ne.symm hne), if_pos rfl, he]
            rfl
          · rw [hent, if_neg hp, if_neg hp']
          · rw [h2]
            exact (works_moveRef c s a.job.pattern q).load
  case resume =>
    obtain ⟨t, ht⟩ := exec_next (i := .resume v mask) rfl trivial hx
    refine ⟨t, ht, ?inStep, ?empty, ?head, ?ignored, ?request, ?job⟩
    case inStep =>
      intro a f hst hh ha
      have e := State.resumeChannel_inStep hst hh
      have halone := (s.alone_leavesHeld c).thenChan Channel.runOn
      rw [← e] at halone
      have k := halone.resumeCommanded hs hmask (Channel.resumable_of_held hst) hx ht
      refine ⟨k.chan.trans ?_, k.others, k.answered _ (by simp) (fun _ => by rw [e]; rfl) (fun _ => by rw [e]; rfl) (by simp) (by simp)⟩
      rw [Channel.runOn, ha]
      rfl
    case empty =>
      intro f hst hh hq
      have e := State.resumeChannel_idle hst hh
      rw [hq, State.decideHead_nil] at e
      have halone := (s.alone_leavesHeld c).thenChan Channel.becomeIdle
      rw [← e] at halone
      have k := halone.resumeCommanded hs hmask (Channel.resumable_of_held hst) hx ht
      refine ⟨k.chan.trans ?_, k.others, k.answered _ (by simp) (fun _ => by rw [e]; rfl) (fun _ => by rw [e]; rfl) (by simp) (by simp)⟩
      rw [Channel.becomeIdle, ← hq]
    case head =>
      intro f hst hh hq
      have e := State.resumeChannel_idle hst hh
      obtain ⟨ch, made, hdec, hcarb, hptab⟩ := State.alone_decideHead (s := s.leavesHeld c) c (q := (s.chan c).queue) hq
      have halone := (s.alone_leavesHeld c).trans hdec
      rw [← e] at halone hcarb hptab
      have k := halone.resumeCommanded hs hmask (Channel.resumable_of_held hst) hx ht
      have htakes := (s.alone_leavesHeld c).takesHead (ch := { s.chan c with hold := none }) (q := (s.chan c).queue) hs (fun _ => rfl) ⟨_, _, rfl⟩
      rw [← e] at htakes
      obtain ⟨l, hl⟩ := k.state
      exact ⟨hl ▸ htakes.withLink l, k.others, k.answered _ (by simp) (fun _ => hptab) (fun _ => hcarb) (by simp) (by simp)⟩
    case ignored =>
      intro hst hr
      exact answered_unchanged (i := .resume v mask) hs rfl trivial hx ht (ownerResume_ignored hmask hst hr)
    case request =>
      intro hst hr
      have e : State.resumeChannel c s = s.modChan c fun ch => { ch with holdRequest := false } := by simp only [State.resumeChannel, hst]
      have halone := State.Alone.modChan s c fun ch => { ch with holdRequest := false }
      rw [← e] at halone
      have k := halone.resumeCommanded hs hmask (by simp [Channel.resumable, hst, hr]) hx ht
      refine ⟨k.chan, k.others, k.answered _ (by simp) (fun _ => by rw [e]; rfl) (fun _ => by rw [e]; rfl) (fun _ => ⟨?_, by rw [e]; rfl⟩)
        fun _ => rfl⟩
      refine State.drivenLevel_of_alike ?_ ?_ ?_ (fun p => by rw [e]; rfl) fun g => by rw [e]; rfl
      all_goals rw [k.own]
    case job =>
      intro a f h steps n x hst ha hn he hx'
      refine ⟨fun hh hk => ?steady, fun k hk => ⟨fun hh hc hq => ?undefined, fun hh hc => ?inCarrier, fun hh hc hstop => ?atEntry⟩⟩
      case steady =>
        obtain ⟨k, hcarb, hptab⟩ := resume_entersSteady hs hmask hx ht hst ha he hx' hh hk
        exact ⟨k.chan, k.rpt, k.others, k.answered _ (by simp) (fun _ => hptab) (fun _ => hcarb) (by simp) (by simp)⟩
      case undefined =>
        obtain ⟨k', hcarb, hrel⟩ := resume_endsNoClass hs hmask hx ht hst ha hn he hx' hw hk hh hc hq
        refine ⟨k'.chan, hrel, k'.rpt, k'.others,
          k'.answered _ (by simp) (by simp) (fun _ => hcarb) (fun _ => ⟨?_, congrArg _ hcarb⟩) (by simp)⟩
        exact State.drivenLevel_of_resting (by rw [k'.own]) (.inl (by rw [k'.own])) (.inr (.inr (.inr hst)))
      case inCarrier =>
        obtain ⟨hasks, hptab, ch, k'⟩ := resume_asksInside hs hmask hx ht hst ha hn he hx' hk hh hc
        exact ⟨hasks, k'.others, k'.answered _ (by simp) (fun _ => hptab) (by simp) (by simp) fun _ => rfl⟩
      case atEntry =>
        obtain ⟨hasks, hptab, ch, k'⟩ := resume_asksAtEntry hs hmask hx ht hst ha hn he hx' hk hh hc hstop
        exact ⟨hasks, k'.rpt, k'.others, k'.answered _ (by simp) (fun _ => hptab) (by simp) (by simp) (by simp)⟩

end Sys2Proof.Machine
end

section
/-! PROOFS. Readback (R105, R107): a channel that leaves for FAULT, and the statement. -/

namespace Sys2Proof.Machine

variable {s t u : State} {c d : Chan} {a : Active} {ch : Channel} {observed : Bool}

/-- A channel without an attachment leaves with its active job and its queue (R43, R60, R107). -/
theorem State.alone_evict (o : JobOutcome) (r : DropReason) (x : ChState) (ha : (s.chan c).active = some a) (hn : a.attach = none) :
    s.Alone (s.evict c o r x) c (Channel.empty x (s.chan c).config) (endReports s c a o
        ++ (s.chan c).queue.map fun j => ⟨.dropped, s.rpt.partTime, some c, j.number, byteOf j.pattern.val, r.code⟩) ∧
      s.Releases (s.evict c o r x) ((s.chan c).naming ·) ∧
      (s.evict c o r x).carb = { s.carb with waitList := s.carb.waitList.filter fun w => w.chan ≠ c } := by
  have hend := State.alone_endJob_unattached o ha hn
  obtain ⟨armed, hdrop⟩ := (s.endJob c o).alone_dropAll c r
  have halone := (hend.trans hdrop).thenChan fun ch => Channel.empty x ch.config
  rw [hend.own, hend.rpt] at halone
  refine ⟨halone, (State.releases_endJob_dropAll o r ha).congr (State.modChan_ptab ..) fun _ => rfl, ?_⟩
  rw [State.evict, State.modChan_carb, ((s.endJob c o).dropAll_eq c r).2.2.1, (State.endJob_of_unattached o ha hn).1]

theorem Channel.readbackDue_iff (hst : ch.state = .playing) (ha : ch.active = some a) (hn : a.attach = none) (hc : a.clock = .running)
    (hd : a.sampleDue = true) : ch.readbackDue = true ↔ a.remaining = 80 := by
  simp only [Channel.readbackDue, ha, hst, hn, hc, hd, Option.isNone_none, decide_true, Bool.true_and]
  exact decide_eq_true_iff

theorem Driven.expected_eq (x : Driven) : x.expected = decide (x ≠ .low) := by
  cases x <;> rfl

/-- Settles O36: agreement takes the sample, a mismatch takes the channel to FAULT. -/
theorem readbackSample : Obligations.ReadbackSample := by
  intro s c observed a hs hw hst ha hn hc hd expected
  obtain ⟨t, ht, hearly, hdue⟩ := runEvent_next (s.chan c).readbackDue (fun u => u.readback c observed) s
  have hiff := Channel.readbackDue_iff hst ha hn hc hd
  have hexp : s.outs[c].expected = expected := Driven.expected_eq _
  refine ⟨t, ht, fun h => hearly (by rw [← Bool.not_eq_true, hiff]; exact h), fun h heq => ?agrees, fun h hne => ?differs⟩
  case agrees =>
    obtain rfl := hdue (hiff.2 h)
    have e : s.readback c observed = s.modActive c fun a => { a with sampleDue := false } := by
      rw [State.readback, hexp, if_pos heq.symm]
    have halone := State.Alone.modActive s c fun a => { a with sampleDue := false }
    have hworks : Works c s (s.modActive c fun a => { a with sampleDue := false }) := works_modActive c s _ fun _ => rfl
    rw [← e, ha] at halone
    rw [← e] at hworks
    have hcarb : (s.readback c observed).carb = s.carb := by rw [e]; rfl
    have hptab : (s.readback c observed).ptab = s.ptab := by rw [e]; rfl
    refine ⟨halone.chan, halone.keepsChannels, hworks.keepsAllBut hs (by simp) (fun _ => hptab) (fun _ => hcarb) (fun _ => ?_)
      (fun _ => halone.outbox hs), State.settled_settle _⟩
    refine halone.drivenLevel hworks (congrArg Carriers.gens hcarb) (State.drivenLevel_of_alike ?_ ?_ ?_ (fun p => by rw [State.entry_congr hptab])
      fun g => by rw [State.gen_congr hcarb])
    all_goals rw [halone.own]
    rw [ha]
    rfl
  case differs =>
    obtain rfl := hdue (hiff.2 h)
    have e : s.readback c observed = s.evict c (.lineFault expected observed) .lineFault .fault := by
      rw [State.readback, hexp, if_neg (Ne.symm hne)]
    obtain ⟨halone, hrel, hcarb⟩ := State.alone_evict (.lineFault expected observed) .lineFault .fault ha hn
    have hworks := works_evict c s (.lineFault expected observed) .lineFault .fault
    rw [State.filter_waitList_of_not_waiting hw (by simp [hst])] at hcarb
    rw [← e] at halone hrel hcarb hworks
    rw [endReports_of_ne (by simp)] at halone
    have hbyte : (JobOutcome.lineFault expected observed).byte = if expected then 0x27#8 else 0x17#8 := by
      have ho : observed = !expected := by cases observed <;> cases h : expected <;> simp_all
      rw [ho]
      cases expected <;> rfl
    rw [hbyte] at halone
    exact ⟨halone.chan, halone.keepsChannels, hrel.settle, halone.taking hs,
      hworks.keepsAllBut hs (by simp) (by simp) (fun _ => hcarb) (by simp) (by simp), State.settled_settle _⟩

end Sys2Proof.Machine
end

section
/-! PROOFS. A generator whose one user leaves it at a cycle end is FREE, or is granted in the same event (R87, R90). -/

namespace Sys2Proof.Machine

variable {s t u : State} {c d : Chan} {g : GenId} {k : Cls} {a b : Active} {ch ch' : Channel} {made more : List Report} {o : JobOutcome}

/-- The class of the oldest waiter (R90). -/
def State.oldest (s : State) : Option Cls :=
  s.carb.waitList.head?.map Waiter.cls

/-- CARB once a generator has become FREE and has been granted to the oldest waiter's class, if one waits (R90). -/
def State.freed (s : State) (g : GenId) : State :=
  (s.setGen g (match s.oldest with | none => .free | some k => .running k 0 true)).setWaitList
    (s.carb.waitList.filter fun w => s.oldest ≠ some w.cls)

/-- A generator has been freed by channel `c`, which has worked on: its record is `ch` now, and it has made some reports. -/
structure State.Grants (s t : State) (c : Chan) (g : GenId) (ch : Channel) (made : List Report) : Prop where
  absent : ∀ w ∈ s.carb.waitList, w.chan ≠ c
  own : t.chan c = ch
  served : ∀ w ∈ s.carb.waitList, s.oldest = some w.cls → t.chan w.chan = (s.chan w.chan).served g
  others : ∀ d, d ≠ c → (∀ w ∈ s.carb.waitList, s.oldest = some w.cls → w.chan ≠ d) → t.chan d = s.chan d
  reports : t.outbox = s.outbox ++ made.map (Prod.mk (.channel c))
  rpt : t.rpt = s.rpt

/-- The channel works on alone. -/
theorem State.Grants.trans (h : s.Grants t c g ch made) (k : t.Alone u c ch' more) : s.Grants u c g ch' (made ++ more) :=
  ⟨h.absent, k.own, fun w hw ho => (k.others _ (h.absent w hw)).trans (h.served w hw ho), fun d hd hn => (k.others d hd).trans (h.others d hd hn),
    by rw [k.reports, h.reports, List.map_append, List.append_assoc], k.rpt.trans h.rpt⟩

theorem State.Grants.thenChan (h : s.Grants t c g ch made) (f : Channel → Channel) : s.Grants (t.modChan c f) c g (f ch) made := by
  have k := h.trans (.modChan t c f)
  rwa [List.append_nil, h.own] at k

theorem State.releaseGen_freed {y : Gen} (hu : u.carb = (s.setGen g y).carb) : (u.releaseGen g).carb = (s.freed g).carb := by
  have hw : (u.setGen g .free).carb.waitList = s.carb.waitList := by rw [State.setGen_waitList, hu, State.setGen_waitList]
  unfold State.releaseGen State.grant
  rw [hw]
  cases h : s.carb.waitList with
  | nil => simp [State.freed, State.oldest, State.setGen, State.setWaitList, hu, h]
  | cons w rest =>
    dsimp only
    rw [State.carb_foldl_granted]
    simp [State.freed, State.oldest, State.setGen, State.setWaitList, hu, h, eq_comm]

/-! ### The gate of the one user closes (R87) -/

section Close

variable (hw : s.WaitersOk) (hst : (s.chan c).state ≠ .carrierWait) (hu : s.users g = [c])
  (halone : (s.setGen g (.running k 0 true)).Alone u c ch []) (hcarb : u.carb = (s.setGen g (.running k 0 true)).carb)
  (hatt : ch.attachment.map Attachment.gen = some g)

include hu halone hcarb hatt

/-- At the cycle boundary the generator is released. -/
theorem State.detach_releases : u.detach c = (u.modActive c fun a => { a with attach := none }).releaseGen g := by
  have hs : (s.chan c).attachment.map Attachment.gen = some g := State.mem_users.1 (by simp [hu])
  obtain ⟨⟨g', x⟩, hx, rfl⟩ : ∃ y, ch.attachment = some y ∧ y.gen = g := by simpa using hatt
  have hch : ∀ d, d ≠ c → u.chan d = s.chan d := halone.others
  have husers : u.users g' = [c] := by
    rw [← hu]
    refine State.users_congr fun d => ?_
    by_cases e : d = c
    · rw [e, halone.own, hatt, hs]
    · rw [hch d e]
  generalize hv : (u.modActive c fun a => { a with attach := none }) = v
  have hvatt : ∀ d, (v.chan d).attachment = if d = c then none else (u.chan d).attachment := by
    intro d
    rw [← hv]
    by_cases e : d = c
    · rw [e, if_pos rfl, State.chan_modActive, if_pos rfl]
      exact Channel.unattached_attachment _
    · rw [if_neg e, State.chan_modActive, if_neg e]
  have hlast : v.users g' = [] := (State.users_detached hvatt (by simp [husers])).2 husers
  have hvcarb : v.carb = u.carb := by rw [← hv]; rfl
  have hb : v.AtCycleEnd g' := by
    refine ⟨k, 0, true, ?_, .inl rfl⟩
    rw [State.gen_congr (hvcarb.trans hcarb), State.gen_setGen_same]
  unfold State.detach
  rw [halone.own, hx]
  dsimp only
  rw [hv, if_pos hlast, State.lastUserLeft_at hb]
  rfl

include hw hst

theorem State.grants_detach : s.Grants (u.detach c) c g ch.unattached [] ∧ (u.detach c).carb = (s.freed g).carb ∧
    (u.detach c).ptab = u.ptab := by
  have habsent : ∀ w ∈ s.carb.waitList, w.chan ≠ c := State.absent_of_not_waiting hw hst rfl
  have hwait : u.carb.waitList = s.carb.waitList := (congrArg Carriers.waitList hcarb).trans rfl
  refine ⟨⟨habsent, ?_, fun w hm ho => ?_, fun d hd hn => ?_, ?_, (works_detach c u).rpt.trans halone.rpt⟩, ?_, u.ptab_detach c⟩
  · rw [State.chan_detach_same (by rw [hwait]; exact habsent), halone.own]
  · rw [State.detach_releases hu halone hcarb hatt]
    obtain ⟨w₀, rest, hl⟩ : ∃ w₀ rest, s.carb.waitList = w₀ :: rest := List.exists_cons_of_ne_nil (List.ne_nil_of_mem hm)
    obtain ⟨-, -, -, -, h5, -⟩ := State.grant_of_waiter (s := (u.modActive c fun a => { a with attach := none }).setGen g .free) (g := g)
      (hwait.trans hl)
    have hcls : w.cls = w₀.cls := by
      rw [State.oldest, hl] at ho
      exact (Option.some.inj ho).symm
    refine (h5 w (hwait.symm ▸ hm) hcls).trans ?_
    rw [State.chan_setGen, State.chan_modActive, if_neg (habsent w hm), halone.others _ (habsent w hm), State.chan_setGen,
      Channel.granted_of_waiting (hw.waiting w hm)]
  · rw [State.detach_releases hu halone hcarb hatt]
    have e : (u.modActive c fun a => { a with attach := none }).chan d = s.chan d := by
      rw [State.chan_modActive, if_neg hd, halone.others d hd, State.chan_setGen]
    cases hl : s.carb.waitList with
    | nil =>
      have hl' : ((u.modActive c fun a => { a with attach := none }).setGen g .free).carb.waitList = [] := hwait.trans hl
      rw [State.releaseGen, State.grant_of_nobody hl']
      exact e
    | cons w₀ rest =>
      obtain ⟨-, -, -, -, -, h6⟩ := State.grant_of_waiter (s := (u.modActive c fun a => { a with attach := none }).setGen g .free) (g := g)
        (hwait.trans hl)
      refine (h6 d fun y hy hc => hn y (hwait ▸ hy) ?_).trans e
      rw [State.oldest, hl, hc]
      rfl
  · rw [State.outbox_detach, halone.reports]
    rfl
  · rw [State.detach_releases hu halone hcarb hatt]
    exact State.releaseGen_freed (u := u.modActive c fun a => { a with attach := none }) hcarb

/-- With its place on the wait list, of which it has none (R92). -/
theorem State.grants_giveUpCarrier : s.Grants (u.giveUpCarrier c) c g ({ ch with waitTimer := none } : Channel).unattached [] ∧
    (u.giveUpCarrier c).carb = (s.freed g).carb ∧ (u.giveUpCarrier c).ptab = u.ptab := by
  have habsent : ∀ w ∈ u.carb.waitList, w.chan ≠ c := State.absent_of_not_waiting hw hst ((congrArg Carriers.waitList hcarb).trans rfl)
  rw [State.giveUpCarrier, State.leaveWaitList_of_absent habsent]
  exact State.grants_detach hw hst hu (halone.thenChan fun ch => { ch with waitTimer := none }) hcarb hatt

/-- The job ends with its gate, and with nothing queued its channel is IDLE (R60, R64). -/
theorem State.grants_finishJob (o : JobOutcome) (ha : ch.active = some a) (hne : ch.state ≠ .held) (hq : ch.queue = []) :
    s.Grants (u.finishJob c o) c g ch.endedIdle (endReports s c a o) ∧ (u.finishJob c o).carb = (s.freed g).carb ∧
      (u.finishJob c o).ptab = (u.dropRef a.job.pattern).ptab := by
  have ha' : (u.chan c).active = some a := by rw [halone.own]; exact ha
  have hrpt : u.rpt = s.rpt := halone.rpt
  obtain ⟨h, h1, -⟩ := State.grants_giveUpCarrier hw hst hu halone hcarb hatt
  rw [State.finishJob_idle o ha' (by rw [halone.own]; exact hne) (by rw [halone.own]; exact hq)]
  have hend : s.Grants (u.endJob c o) c g ch.ended (endReports s c a o) := by
    refine ⟨h.absent, (State.chan_endJob_same o ha').trans (by rw [halone.own]), fun w hm ho => ?_, fun d hd hn => ?_, ?_,
      (works_endJob c u o).rpt.trans hrpt⟩
    · rw [State.chan_endJob_other o ha' (h.absent w hm), h.served w hm ho]
    · rw [State.chan_endJob_other o ha' hd, h.others d hd hn]
    · rw [State.outbox_endJob o ha', halone.reports, endedReports, endReports, hrpt]
      simp only [List.map_nil, List.append_nil]
      split <;> rfl
  exact ⟨hend.thenChan Channel.becomeIdle, by rw [State.modChan_carb, State.carb_endJob o ha', h1],
    by rw [State.modChan_ptab, State.ptab_endJob o ha']⟩

end Close

end Sys2Proof.Machine
end

section
/-! PROOFS. A cycle end at which the gate of a generator's one user closes (R55 to R57, R64, R73, R87, R90, R94). -/

namespace Sys2Proof.Machine

variable {s t u : State} {c d : Chan} {g : GenId} {k k' : Cls} {a b next : Active} {ch : Channel} {made : List Report} {o : JobOutcome} {h : Header}
  {steps : List Step} {n p : Nat} {y z : Step} {high : Bool}

/-! ### Whether the gate stays open (R57) -/

theorem State.continues_of_steady (hy : s.currentStep next = some y) (hk : ∀ k, y.kind ≠ .carrier k) (a : Active) : s.continues a next = false := by
  unfold State.continues
  rw [hy]
  split
  · next e => exact absurd (Option.some.inj e) (hk _)
  · rfl

theorem State.continues_of_carriers (hz : s.currentStep a = some z) (hzk : z.kind = .carrier k) (hy : s.currentStep next = some y)
    (hyk : y.kind = .carrier k') : s.continues a next = (a.attach.isSome && decide (k = k')) := by
  simp only [State.continues, hz, hy, Option.map_some, hzk, hyk]

/-! ### What the events of the one user come to -/

section Close

variable (hw : s.WaitersOk) (hu : s.users g = [c]) (hst : (s.chan c).state = .playing) (ha : (s.chan c).active = some a)
  (hat : a.attach = some ⟨g, .opened⟩)

include hw hu hst ha hat

/-- The job goes on, and its gate closes before the next step is entered (R52, R87, R94). -/
theorem State.stepEnd_closes (hnext : s.nextStep a = .goesOn next) (hno : s.continues a next = false) (hp : next.job.pattern = a.job.pattern)
    (hn : next.attach = a.attach) : ∃ v, (s.setGen g (.running k 0 true)).stepEnd c = v.enterNext c ∧
      s.Grants v c g { s.chan c with active := some { next with attach := none } } [] ∧ v.carb = (s.freed g).carb ∧ v.ptab = s.ptab := by
  have halone := State.Alone.modChan (s.setGen g (.running k 0 true)) c (Channel.withActive next)
  obtain ⟨h1, h2, h3⟩ := State.grants_detach hw (by simp [hst]) hu halone rfl
    (by simp [Channel.withActive, Channel.attachment, hn, hat])
  refine ⟨_, ?_, h1, h2, h3.trans rfl⟩
  have ha' : ((s.setGen g (.running k 0 true)).chan c).active = some a := ha
  have hnext' : (s.setGen g (.running k 0 true)).nextStep a = .goesOn next := (State.nextStep_congr rfl a).trans hnext
  have hno' : (s.setGen g (.running k 0 true)).continues a next = false := hno
  unfold State.stepEnd
  simp only [ha', hnext', hno', hp, State.moveRef_self]
  exact if_neg Bool.false_ne_true

section Next

variable (hnext : s.nextStep a = .goesOn next) (hno : s.continues a next = false) (hp : next.job.pattern = a.job.pattern) (hn : next.attach = a.attach)
  (he : s.entry a.job.pattern = .ready h steps n) (hy : steps[next.stepIndex]? = some y)

include hnext hno hp hn he hy

/-- A steady step follows (R52, R56). -/
theorem State.stepEnd_steady (hk : ∀ k, y.kind ≠ .carrier k) :
    s.Grants ((s.setGen g (.running k 0 true)).stepEnd c) c g { s.chan c with
        state := .playing
        active := some (Active.entered (s.chan c).config (y.duration.toNat * h.timeUnit.clocks) { next with attach := none }) }
        (markReports s c next y) ∧
      ((s.setGen g (.running k 0 true)).stepEnd c).carb = (s.freed g).carb ∧ ((s.setGen g (.running k 0 true)).stepEnd c).ptab = s.ptab := by
  obtain ⟨v, e, hG, hcarb, hptab⟩ := State.stepEnd_closes (k := k) hw hu hst ha hat hnext hno hp hn
  obtain ⟨hen, hc', hp'⟩ := State.alone_enterNext (s := v) (c := c) (a := { next with attach := none }) (by rw [hG.own])
    (by rw [State.entry_congr hptab]; exact hp ▸ he) hy hk
  have hG' := hG.trans hen
  rw [hG.own, markReports, hG.rpt, List.nil_append] at hG'
  rw [e, hc', hp']
  exact ⟨hG', hcarb, hptab⟩

/-- A CARRIER step of an undefined class follows, and ends the job (R55, R94). -/
theorem State.stepEnd_noClass (hk : y.kind = .carrier k') (hc : s.carrierClass k' = none) (hq : (s.chan c).queue = []) :
    s.Grants ((s.setGen g (.running k 0 true)).stepEnd c) c g (s.chan c).endedIdle
        [⟨.ended, s.rpt.partTime, some c, next.job.number, byteOf next.job.pattern.val, 0x05#8⟩] ∧
      ((s.setGen g (.running k 0 true)).stepEnd c).carb = (s.freed g).carb ∧
      ((s.setGen g (.running k 0 true)).stepEnd c).ptab = (s.dropRef a.job.pattern).ptab := by
  obtain ⟨v, e, hG, hcarb, hptab⟩ := State.stepEnd_closes (k := k) hw hu hst ha hat hnext hno hp hn
  have hva : (v.chan c).active = some { next with attach := none } := by rw [hG.own]
  have hve : v.entry next.job.pattern = .ready h steps n := by rw [State.entry_congr hptab]; exact hp ▸ he
  have hvc : v.carrierClass k' = none := by rw [State.carrierClass, hcarb]; exact hc
  have hvst : (v.chan c).state ≠ .held := by rw [hG.own]; simp [hst]
  have hvq : (v.chan c).queue = [] := by rw [hG.own]; exact hq
  have hG' := hG.trans (State.alone_finishJob_idle .noCarrierClass hva rfl hvst hvq)
  have habsent : v.carb.waitList.filter (fun w => w.chan ≠ c) = v.carb.waitList :=
    List.filter_eq_self.2 fun w hm => by
      rw [hcarb] at hm
      simpa using hG.absent w (List.mem_of_mem_filter hm)
  rw [hG.own, endReports_of_ne (by simp), hG.rpt, List.nil_append] at hG'
  rw [e, State.enterNext_noClass (s := v) hva hve hy hk hvc]
  refine ⟨hG', ?_, ?_⟩
  · rw [State.carb_finishJob_idle .noCarrierClass hva rfl hvst hvq, habsent, hcarb]
  · rw [State.ptab_finishJob_idle .noCarrierClass hva hvst hvq]
    dsimp only
    rw [hp]
    simp only [State.dropRef, State.setEntry, State.entry, hptab]

/-- A CARRIER step of a defined class follows, which is asked for after the release (R94). -/
theorem State.stepEnd_asks (hk : y.kind = .carrier k') (hc : s.carrierClass k' ≠ none) (hstop : next.stop = none) :
    (∃ ch, s.Grants ((s.setGen g (.running k 0 true)).stepEnd c) c g ch (markReports s c next y)) ∧
      (s.freed g).Asks ((s.setGen g (.running k 0 true)).stepEnd c).settle c k' (s.chan c)
        (Active.enterCarrier (y.duration.toNat * h.timeUnit.clocks) { next with attach := none }) ∧
      ((s.setGen g (.running k 0 true)).stepEnd c).ptab = s.ptab := by
  obtain ⟨v, e, hG, hcarb, hptab⟩ := State.stepEnd_closes (k := k) hw hu hst ha hat hnext hno hp hn
  have hva : (v.chan c).active = some { next with attach := none } := by rw [hG.own]
  have hve : v.entry next.job.pattern = .ready h steps n := by rw [State.entry_congr hptab]; exact hp ▸ he
  have hvc : v.carrierClass k' ≠ none := by rw [State.carrierClass, hcarb]; exact hc
  obtain ⟨u, e', huA, hc', hp'⟩ := State.enterNext_asks (s := v) hva hve hy hk hvc hstop
  obtain ⟨ch, hr⟩ := u.alone_request c k'
  have hG' := (hG.trans huA).trans hr
  rw [List.append_nil, List.nil_append, markReports, hG.rpt] at hG'
  rw [e, e', State.ptab_request, hp', hptab]
  exact ⟨⟨ch, hG'⟩, State.asks_request (s := s.freed g) (u := u) (k := k') (ch := s.chan c) (hc'.trans hcarb)
    ⟨(s.chan c).state, huA.own.trans (by rw [hG.own])⟩ rfl, rfl⟩

end Next

/-- A stop NOW ends the job (R64). -/
theorem State.stepEnd_stopped (hends : s.nextStep a = .ends o) (hq : (s.chan c).queue = []) :
    s.Grants ((s.setGen g (.running k 0 true)).stepEnd c) c g (s.chan c).endedIdle (endReports s c a o) ∧
      ((s.setGen g (.running k 0 true)).stepEnd c).carb = (s.freed g).carb ∧
      ((s.setGen g (.running k 0 true)).stepEnd c).ptab = (s.dropRef a.job.pattern).ptab := by
  have e : (s.setGen g (.running k 0 true)).stepEnd c = (s.setGen g (.running k 0 true)).finishJob c o := by
    have ha' : ((s.setGen g (.running k 0 true)).chan c).active = some a := ha
    have hends' : (s.setGen g (.running k 0 true)).nextStep a = .ends o := (State.nextStep_congr rfl a).trans hends
    unfold State.stepEnd
    simp only [ha', hends']
  rw [e]
  exact State.grants_finishJob hw (by simp [hst]) hu (.refl _ c) rfl (by simp [Channel.attachment, ha, hat]) o ha (by simp [hst]) hq

/-- A hold request takes effect with time left on the step (R73). -/
theorem State.hold_closes (hstop : a.stop = none) (hr : a.remaining ≠ 0) :
    s.Grants ((s.setGen g (.running k 0 true)).holdJob c .playing .inCarrier) c g
        ((s.chan c).heldWith .playing (some .inCarrier) (some a.held)) [] ∧
      ((s.setGen g (.running k 0 true)).holdJob c .playing .inCarrier).carb = (s.freed g).carb ∧
      ((s.setGen g (.running k 0 true)).holdJob c .playing .inCarrier).ptab = s.ptab := by
  obtain ⟨h1, h2, h3⟩ := State.grants_giveUpCarrier (k := k) hw (by simp [hst]) hu (.refl _ c) rfl (by simp [Channel.attachment, ha, hat])
  have hg := h1.thenChan (Channel.becomeHeld .playing (some .inCarrier))
  rw [State.holdJob_eq_becomesHeld (s := s.setGen g (.running k 0 true)) ha hstop hr]
  have hch : Channel.becomeHeld .playing (some .inCarrier) ({ s.chan c with waitTimer := none } : Channel).unattached
      = (s.chan c).heldWith .playing (some .inCarrier) (some a.held) := by
    simp only [Channel.becomeHeld, Channel.unattached, ha]
    rfl
  refine ⟨hch ▸ hg, h2, h3⟩

end Close

/-- The step that follows is a CARRIER step of the same class: the gate stays open (R57). -/
theorem State.stepEnd_continues (ha : (s.chan c).active = some a) (hnext : s.nextStep a = .goesOn next) (hyes : s.continues a next = true)
    (hp : next.job.pattern = a.job.pattern) (he : s.entry a.job.pattern = .ready h steps n) (hy : steps[next.stepIndex]? = some y) :
    (s.setGen g (.running k 0 true)).Alone ((s.setGen g (.running k 0 true)).stepEnd c) c
        { s.chan c with active := some { next with remaining := y.duration.toNat * h.timeUnit.clocks, clock := .running } } (markReports s c next y) ∧
      ((s.setGen g (.running k 0 true)).stepEnd c).carb = (s.setGen g (.running k 0 true)).carb ∧
      ((s.setGen g (.running k 0 true)).stepEnd c).ptab = s.ptab := by
  have he' : (s.setGen g (.running k 0 true)).entry next.job.pattern = .ready h steps n := hp ▸ he
  have hcur : (s.setGen g (.running k 0 true)).currentStep next = some y := (State.currentStep_of_ready he').trans hy
  have hlen : (s.setGen g (.running k 0 true)).stepLength next.job.pattern y = y.duration.toNat * h.timeUnit.clocks := by
    rw [State.stepLength, State.unitClocks, he']
  have e : (s.setGen g (.running k 0 true)).stepEnd c = ((s.setGen g (.running k 0 true)).modChan c
      (Channel.withActive { next with remaining := y.duration.toNat * h.timeUnit.clocks, clock := .running })).markEntry c next y := by
    have ha' : ((s.setGen g (.running k 0 true)).chan c).active = some a := ha
    have hnext' : (s.setGen g (.running k 0 true)).nextStep a = .goesOn next := (State.nextStep_congr rfl a).trans hnext
    have hyes' : (s.setGen g (.running k 0 true)).continues a next = true := hyes
    unfold State.stepEnd
    simp only [ha', hnext', hyes', hp, State.moveRef_self, if_true]
    rw [State.continueStep, hcur]
    simp only [hlen]
  have hm := State.Alone.modChan (s.setGen g (.running k 0 true)) c
    (Channel.withActive { next with remaining := y.duration.toNat * h.timeUnit.clocks, clock := .running })
  have k' := hm.trans (State.alone_markEntry _ c next y)
  rw [hm.own, List.nil_append, ← e] at k'
  refine ⟨k', ?_, ?_⟩
  · rw [e, State.carb_markEntry, State.modChan_carb]
  · rw [e, State.ptab_markEntry, State.modChan_ptab]
    rfl

end Sys2Proof.Machine
end

section
/-! PROOFS. A cycle end at which a gate closes: the statement. -/

namespace Sys2Proof.Machine

variable {s t u : State} {c d : Chan} {g : GenId} {k k' : Cls} {a b next : Active} {ch : Channel} {made : List Report} {o : JobOutcome} {h : Header}
  {steps : List Step} {n p : Nat} {y z : Step} {high : Bool}

theorem works_cycleEnd_user (hg : s.gen g = .running k p high) (hu : s.users g = [c]) : Works c s (s.cycleEnd g) := by
  rw [State.cycleEnd_of_user hg hu]
  exact (works_setGen c s g _).trans (works_cycleEndUser g c _)

/-! ### A gate closes beside other users (R82, R87) -/

theorem Channel.openGate_user (ch : Channel) : (ch.openGate g).attachment.map Attachment.gen = some g ↔ ch.attachment.map Attachment.gen = some g := by
  unfold Channel.openGate
  split
  · next e =>
    rw [e]
    obtain ⟨a, ha, -⟩ : ∃ a, ch.active = some a ∧ a.attach = some ⟨g, .opening⟩ := by
      simpa [Channel.attachment, Option.bind_eq_some_iff] using e
    simp [Channel.served, Channel.attachment, ha]
  · rfl

/-- The users that a generator keeps when one leaves. -/
theorem State.users_left (hc : (t.chan c).attachment = none)
    (h : ∀ d, d ≠ c → ((t.chan d).attachment.map Attachment.gen = some g ↔ (s.chan d).attachment.map Attachment.gen = some g)) :
    t.users g = (s.users g).filter fun d => d ≠ c := by
  have hu : ∀ (u : State) d, u.uses d g = true ↔ (u.chan d).attachment.map Attachment.gen = some g := fun u d => by
    simpa [State.users, chansWith] using State.mem_users (s := u) (c := d) (g := g)
  unfold State.users chansWith
  rw [List.filter_filter]
  refine List.filter_congr fun d _ => ?_
  rw [Bool.eq_iff_iff, Bool.and_eq_true, hu, hu, decide_eq_true_eq]
  by_cases e : d = c
  · simp [e, hc]
  · rw [h d e, and_iff_right e]

/-- A gate closes on a generator that keeps other users. -/
theorem State.detach_shared (hatt : (u.chan c).attachment.map Attachment.gen = some g) (hne : u.users g ≠ [c]) :
    u.detach c = u.modActive c fun a => { a with attach := none } := by
  obtain ⟨⟨g', x⟩, hx, rfl⟩ : ∃ y, (u.chan c).attachment = some y ∧ y.gen = g := by simpa using hatt
  unfold State.detach
  rw [hx]
  refine if_neg fun hnil => hne ((State.users_detached (fun d => ?_) (State.mem_users.2 hatt)).1 hnil)
  by_cases e : d = c
  · rw [e, if_pos rfl, State.chan_modActive, if_pos rfl]
    exact Channel.unattached_attachment _
  · rw [if_neg e, State.chan_modActive, if_neg e]

/-- The step that has run out is followed by a steady one, its generator kept by other users (R52, R87). -/
theorem State.stepEnd_shared (ha : (u.chan c).active = some a) (hat : a.attach = some ⟨g, .opened⟩) (hne : u.users g ≠ [c])
    (hnext : u.nextStep a = .goesOn next) (hp : next.job.pattern = a.job.pattern) (hn : next.attach = a.attach)
    (he : u.entry a.job.pattern = .ready h steps n) (hy : steps[next.stepIndex]? = some y) (hk : ∀ k, y.kind ≠ .carrier k) :
    u.Alone (u.stepEnd c) c { u.chan c with
        state := .playing
        active := some (Active.entered (u.chan c).config (y.duration.toNat * h.timeUnit.clocks) { next with attach := none }) }
        (markReports u c next y) ∧ (u.stepEnd c).carb = u.carb ∧ (u.stepEnd c).ptab = u.ptab := by
  have he' : u.entry next.job.pattern = .ready h steps n := hp ▸ he
  have hno := State.continues_of_steady ((State.currentStep_of_ready he').trans hy) hk a
  have hv := (State.Alone.modChan u c (Channel.withActive next)).thenChan Channel.unattached
  have e : u.stepEnd c = ((u.modChan c (Channel.withActive next)).modChan c Channel.unattached).enterNext c := by
    have hatt : ((u.modChan c (Channel.withActive next)).chan c).attachment.map Attachment.gen = some g := by
      rw [State.chan_modChan, if_pos rfl]
      simp [Channel.withActive, Channel.attachment, hn, hat]
    have husers : (u.modChan c (Channel.withActive next)).users g = u.users g := State.users_congr fun d => by
      rw [State.chan_modChan]
      split
      · next e => simp [e, Channel.withActive, Channel.attachment, hn, ha]
      · rfl
    unfold State.stepEnd
    simp only [ha, hnext, hno, hp, State.moveRef_self]
    rw [if_neg Bool.false_ne_true, State.detach_shared hatt (husers ▸ hne)]
    rfl
  obtain ⟨hen, hcarb, hptab⟩ := State.alone_enterNext (s := (u.modChan c (Channel.withActive next)).modChan c Channel.unattached) (c := c)
    (a := { next with attach := none }) (by rw [hv.own]; rfl) he' hy hk
  have k := hv.trans hen
  rw [← e, hv.own, List.nil_append] at k
  exact ⟨k, by rw [e, hcarb]; rfl, by rw [e, hptab]; rfl⟩

/-- The users of a generator that a cycle end has not come to yet are as they were, the others have opened their gates, and of channel `c` the
gate has closed: its record is then `ch`, its reports are `made`. -/
structure CycleTurn (s : State) (g : GenId) (k : Cls) (c : Chan) (ch : Channel) (made : List Report) (cs : List Chan) (u : State) : Prop where
  users : ∀ d ∈ cs, d ∈ s.users g
  carb : u.carb = (s.setGen g (.running k 0 true)).carb
  ptab : u.ptab = s.ptab
  rpt : u.rpt = s.rpt
  waiting : ∀ d ∈ cs, u.chan d = s.chan d
  served : ∀ d, d ≠ c → d ∉ cs → u.chan d = (s.chan d).openGate g
  closed : c ∉ cs → u.chan c = ch ∧ u.outbox = s.outbox ++ made.map (Prod.mk (.channel c))
  unreported : c ∈ cs → u.outbox = s.outbox

section Shared

variable (hg : s.gen g = .running k p high) (hc : c ∈ s.users g) (hne : s.users g ≠ [c]) (ha : (s.chan c).active = some a)
  (hat : a.attach = some ⟨g, .opened⟩) (he : s.entry a.job.pattern = .ready h steps n) (hr : a.remaining = 0)
  (hreq : (s.chan c).holdRequest = false) (hnext : s.nextStep a = .goesOn next) (hp : next.job.pattern = a.job.pattern)
  (hn : next.attach = a.attach) (hy : steps[next.stepIndex]? = some y) (hk : ∀ k, y.kind ≠ .carrier k)
  (hkeep : ∀ d ∈ s.users g, d ≠ c → (s.chan d).KeepsGate g)

include hg hc hne ha hat he hr hreq hnext hp hn hy hk hkeep

/-- A cycle end at which the gate of one user closes, and no other. -/
theorem State.cycleEnd_closesOne : CycleTurn s g k c { s.chan c with
      state := .playing
      active := some (Active.entered (s.chan c).config (y.duration.toNat * h.timeUnit.clocks) { next with attach := none }) }
    (markReports s c next y) [] (s.cycleEnd g) := by
  rw [State.cycleEnd_running hg]
  refine State.forEach_induction (s.users_nodup g) (fun cs n hcs => ⟨fun d => hcs.mem_iff.1, rfl, rfl, rfl, fun d _ => rfl, fun d _ hd => ?_,
    fun h => absurd (hcs.mem_iff.2 hc) h, fun _ => rfl⟩) fun d cs u hnd hu => ?_
  · refine (Channel.openGate_of_ne (ch := s.chan d) fun hatt => hd (hcs.mem_iff.2 (State.mem_users.2 ?_))).symm
    rw [hatt]
    rfl
  · have hd := hu.waiting d List.mem_cons_self
    obtain ⟨hdcs, -⟩ := List.nodup_cons.1 hnd
    by_cases e : d = c
    · subst e
      have husers : u.users g = s.users g := State.users_congr fun i => by
        by_cases hi : i ∈ d :: cs
        · rw [hu.waiting i hi]
        · rw [hu.served i (fun e => hi (e ▸ List.mem_cons_self)) hi, Channel.openGate_user]
      have hent : u.entry a.job.pattern = .ready h steps n := (State.entry_congr hu.ptab _).trans he
      obtain ⟨k', hcarb, hptab⟩ := State.stepEnd_shared (u := u) (hd ▸ ha) hat (husers ▸ hne) ((State.nextStep_congr hu.ptab a).trans hnext) hp hn
        hent hy hk
      rw [State.cycleEndUser_closing (hd ▸ ha) hat (hd ▸ hreq) (.inl hr)]
      refine ⟨fun i hi => hu.users i (List.mem_cons_of_mem _ hi), hcarb.trans hu.carb, hptab.trans hu.ptab, k'.rpt.trans hu.rpt, fun i hi => ?_,
        fun i hi hics => ?_, fun _ => ⟨k'.own.trans (by rw [hd]), ?_⟩, fun h => absurd h hdcs⟩
      · rw [k'.others i (by rintro rfl; exact hdcs hi), hu.waiting i (List.mem_cons_of_mem _ hi)]
      · rw [k'.others i hi, hu.served i hi (by simp [hi, hics])]
      · rw [k'.reports, hu.unreported List.mem_cons_self, markReports, markReports, hu.rpt]
    · have huser := hu.users d List.mem_cons_self
      rw [State.cycleEndUser_keepsGate (hd ▸ hkeep d huser e)]
      refine ⟨fun i hi => hu.users i (List.mem_cons_of_mem _ hi), hu.carb, hu.ptab, hu.rpt, fun i hi => ?_, fun i hi hics => ?_, fun h => ?_,
        fun h => hu.unreported (List.mem_cons_of_mem _ h)⟩
      · rw [State.chan_modChan, if_neg (by rintro rfl; exact hdcs hi), hu.waiting i (List.mem_cons_of_mem _ hi)]
      · rw [State.chan_modChan]
        by_cases e' : i = d
        · rw [if_pos e', e', hd]
        · rw [if_neg e', hu.served i hi (by simp [e', hics])]
      · rw [State.chan_modChan, if_neg (Ne.symm e)]
        exact hu.closed (by simp [Ne.symm e, h])

end Shared

/-- Settles O16: on a generator's one user the gate closes first, which frees the generator, and the channel then works on alone; beside other
users the channel leaves a generator that goes on. -/
theorem gateCloses : Obligations.GateCloses := by
  refine ⟨?single, ?shared⟩
  case single =>
    intro s g k x c a h steps n hs hw hg hx hu ha hst hat he
    have hk : (s.gen g).cls = some k := by rw [hg]; rfl
    obtain ⟨t, ht, -, hdue⟩ := runEvent_next (s.cycleDue g) (fun u => u.cycleEnd g) s
    obtain rfl := hdue ((State.cycleDue_iff hk hx).2 (by rw [hg]; exact le_refl _))
    refine ⟨_, ht, ?_⟩
    intro oldest freed grants frees marked ended
    have e₀ := State.cycleEnd_of_user hg hu
    have hworks := works_cycleEnd_user hg hu
    have closing (hr : a.remaining = 0 ∨ a.stop.map PendingStop.boundary = some .now) (hreq : (s.chan c).holdRequest = false) :
        s.cycleEnd g = (s.setGen g (.running k 0 true)).stepEnd c := by
      rw [e₀]
      exact State.cycleEndUser_closing (s := s.setGen g (.running k 0 true)) ha hat hreq hr
    have granted {ch : Channel} {made : List Report} (hG : s.Grants (s.cycleEnd g) c g ch made) : grants :=
      ⟨fun w hm ho => (State.chan_settle _ _).trans (hG.served w hm ho), fun d hd hn => (State.chan_settle _ _).trans (hG.others d hd hn),
        State.settled_settle _⟩
    have freeing {ch : Channel} {made : List Report} (hG : s.Grants (s.cycleEnd g) c g ch made) (hcarb : (s.cycleEnd g).carb = (s.freed g).carb) :
        frees := by
      have e : (s.cycleEnd g).settle.carb = freed.carb := (State.settle_carb _).trans hcarb
      exact ⟨granted hG, congrArg _ e, (congrArg Carriers.classes e).trans rfl, congrArg _ e⟩
    have own {ch : Channel} {made : List Report} (hG : s.Grants (s.cycleEnd g) c g ch made) : (s.cycleEnd g).settle.chan c = ch :=
      (State.chan_settle _ c).trans hG.own
    have taking {ch : Channel} {made : List Report} (hG : s.Grants (s.cycleEnd g) c g ch made) : (s.cycleEnd g).settle.rpt = s.rpt.taking made :=
      State.taking_of_reports hG.reports hG.rpt hs
    refine ⟨fun y hr hstop hreq hl hy hyk => ?steady, fun o hstop hreq hq => ?stopped, fun y z k' hr hstop hreq hl hz hzk hy hyk hne => ?other,
      fun y z hr hstop hreq hl hz hzk hy hyk => ?same, fun hr hstop hclock hreq => ?held⟩
    case held =>
      have e : s.cycleEnd g = (s.setGen g (.running k 0 true)).holdJob c .playing .inCarrier := by
        rw [e₀]
        exact State.cycleEndUser_held (s := s.setGen g (.running k 0 true)) ha hat hreq
      obtain ⟨hG, hcarb, hptab⟩ := State.hold_closes (k := k) hw hu hst ha hat hstop hr
      rw [← e] at hG hcarb hptab
      refine ⟨freeing hG hcarb, (own hG).trans ?_, hworks.keepsAllBut hs (by simp) (fun _ => hptab) (by simp) (by simp) fun _ => ?_⟩
      · rw [Active.held, Active.frozenAt]
        dsimp only
        rw [if_pos hclock]
        rfl
      · rw [hG.reports, hs.outbox]
        rfl
    case stopped =>
      have e := closing (.inr (by rw [hstop]; rfl)) hreq
      obtain ⟨hG, hcarb, hptab⟩ := State.stepEnd_stopped (k := k) hw hu hst ha hat
        (State.nextStep_stopped he hstop (.inl (by simp))) hq
      have hne : o.outcome ≠ .completed := by cases o <;> simp [FixedOutcome.outcome]
      rw [← e, endReports_of_ne hne] at hG
      rw [← e] at hcarb hptab
      exact ⟨freeing hG hcarb, own hG, (State.releases_active hptab ha hq).settle, taking hG,
        hworks.keepsAllBut hs (by simp) (by simp) (by simp) (by simp) (by simp)⟩
    case same =>
      have e := closing (.inl hr) hreq
      have hnext : s.nextStep a = .goesOn { a with stepIndex := a.stepIndex + 1 } :=
        State.nextStep_within he (fun p hp => absurd (hstop.symm.trans hp) nofun) hl
      have hyes : s.continues a { a with stepIndex := a.stepIndex + 1 } = true := by
        rw [State.continues_of_carriers (z := z) (y := y) ((State.currentStep_of_ready he).trans hz) hzk
          ((State.currentStep_of_ready (a := { a with stepIndex := a.stepIndex + 1 }) he).trans hy) hyk, hat]
        simp
      obtain ⟨halone, hcarb, hptab⟩ := State.stepEnd_continues (g := g) (k := k) ha hnext hyes rfl he hy
      rw [← e] at halone hcarb hptab
      have hc : (s.cycleEnd g).settle.carb = (s.setGen g (.running k 0 true)).carb := (State.settle_carb _).trans hcarb
      refine ⟨(State.gen_congr hc g).trans (s.gen_setGen_same g _), fun g' hne => (State.gen_congr hc g').trans (s.gen_setGen_other _ hne),
        (congrArg Carriers.classes hc).trans rfl, (congrArg Carriers.waitList hc).trans rfl, halone.keepsChannels, halone.chan,
        State.taking_of_reports (s := s) halone.reports halone.rpt hs,
        hworks.keepsAllBut hs (by simp) (fun _ => hptab) (by simp) (by simp) (by simp), State.settled_settle _⟩
    case steady =>
      have e := closing (.inl hr) hreq
      have hnext : s.nextStep a = .goesOn { a with stepIndex := a.stepIndex + 1 } :=
        State.nextStep_within he (fun p hp => absurd (hstop.symm.trans hp) nofun) hl
      have hno : s.continues a { a with stepIndex := a.stepIndex + 1 } = false :=
        State.continues_of_steady (y := y) ((State.currentStep_of_ready (a := { a with stepIndex := a.stepIndex + 1 }) he).trans hy) hyk a
      obtain ⟨hG, hcarb, hptab⟩ := State.stepEnd_steady (k := k) hw hu hst ha hat hnext hno rfl rfl he hy hyk
      rw [← e] at hG hcarb hptab
      refine ⟨freeing hG hcarb, (own hG).trans ?_, taking hG,
        hworks.keepsAllBut hs (by simp) (fun _ => hptab) (by simp) (by simp) (by simp)⟩
      rw [← hst]
      rfl
    case other =>
      have e := closing (.inl hr) hreq
      have hnext : s.nextStep a = .goesOn { a with stepIndex := a.stepIndex + 1 } :=
        State.nextStep_within he (fun p hp => absurd (hstop.symm.trans hp) nofun) hl
      have hno : s.continues a { a with stepIndex := a.stepIndex + 1 } = false := by
        rw [State.continues_of_carriers (z := z) (y := y) ((State.currentStep_of_ready he).trans hz) hzk
          ((State.currentStep_of_ready (a := { a with stepIndex := a.stepIndex + 1 }) he).trans hy) hyk]
        simp [Ne.symm hne]
      refine ⟨fun hc hq => ?_, fun hc => ?_⟩
      · obtain ⟨hG, hcarb, hptab⟩ := State.stepEnd_noClass (k := k) hw hu hst ha hat hnext hno rfl rfl he hy hyk hc hq
        rw [← e] at hG hcarb hptab
        exact ⟨freeing hG hcarb, own hG, (State.releases_active hptab ha hq).settle, taking hG,
          hworks.keepsAllBut hs (by simp) (by simp) (by simp) (by simp) (by simp)⟩
      · obtain ⟨⟨ch, hG⟩, hasks, hptab⟩ := State.stepEnd_asks (k := k) hw hu hst ha hat hnext hno rfl rfl he hy hyk hc hstop
        rw [← e] at hG hasks hptab
        exact ⟨granted hG, hasks, taking hG, hworks.keepsAllBut hs (by simp) (fun _ => hptab) (by simp) (by simp) (by simp)⟩
  case shared =>
    intro s g k x c a h steps n y hs hg hx hc hne ha hst hat he hr hstop hreq hl hy hyk hothers
    have hk : (s.gen g).cls = some k := by rw [hg]; rfl
    obtain ⟨t, ht, -, hdue⟩ := runEvent_next (s.cycleDue g) (fun u => u.cycleEnd g) s
    obtain rfl := hdue ((State.cycleDue_iff hk hx).2 (by rw [hg]; exact le_refl _))
    have hnext : s.nextStep a = .goesOn { a with stepIndex := a.stepIndex + 1 } :=
      State.nextStep_within he (fun p hp => absurd (hstop.symm.trans hp) nofun) hl
    have hturn := State.cycleEnd_closesOne hg hc hne ha hat he hr hreq hnext rfl rfl hy hyk fun d hd e =>
      ⟨State.mem_users.1 hd, fun b hb hbat => hothers d b hd e hb hbat⟩
    have heff := effects_cycleEnd s g
    generalize s.cycleEnd g = u at *
    obtain ⟨hown, hout⟩ := hturn.closed (by simp)
    have hcarb : u.settle.carb = (s.setGen g (.running k 0 true)).carb := (State.settle_carb u).trans hturn.carb
    have hch : ∀ d, d ≠ c → u.settle.chan d = (s.chan d).openGate g := fun d hd => (State.chan_settle u d).trans (hturn.served d hd (by simp))
    have hcc : u.settle.chan c = _ := (State.chan_settle u c).trans hown
    refine ⟨_, ht, (State.gen_congr hcarb g).trans (s.gen_setGen_same g _), fun g' hne => (State.gen_congr hcarb g').trans (s.gen_setGen_other _ hne),
      (congrArg Carriers.classes hcarb).trans rfl, (congrArg Carriers.waitList hcarb).trans rfl, ?_, hcc.trans ?_, fun d b hb hbat => ?_,
      fun d hd hno => ?_, State.taking_of_reports hout hturn.rpt hs, hs.keepsAllBut heff.clock heff.pending (fun b hb _ _ _ => ?_)
        (by simp) (by simp) (by simp), State.settled_settle _⟩
    · refine State.users_left (by rw [hcc]; rfl) fun d hd => ?_
      rw [hch d hd, Channel.openGate_user]
    · rw [← hst]
      rfl
    · rw [hch d, Channel.openGate_of_opening hb hbat]
      rintro rfl
      rw [ha] at hb
      cases hb
      rw [hat] at hbat
      cases hbat
    · rw [hch d hd, Channel.openGate_of_ne hno]
    · cases b with
      | patterns => exact hturn.ptab
      | jobCounter => exact heff.nextJob
      | sense => exact heff.sense
      | lease => exact heff.lease
      | link => exact heff.link
      | _ => simp at hb

end Sys2Proof.Machine
end

section
/-! PROOFS. Several channels leave at one moment (R93, R104, R143): their reports, the references that they give up, and what RPT takes (R128). -/

namespace Sys2Proof.Machine

variable {s t u : State} {c d : Chan} {cs : List Chan} {a : Active} {ch : Channel} {made : List Report} {o : JobOutcome} {r : DropReason} {x : ChState}

/-! ### One channel of them -/

/-- A channel without an attachment leaves: its jobs' references and reports (R43, R60). -/
theorem State.evict_gives (hn : (s.chan c).attachment = none) (ho : o ≠ .completed) :
    (s.evict c o r x).ptab = (s.dropRefs (s.chan c).patterns).ptab ∧
      (s.evict c o r x).outbox = s.outbox ++ (s.leavingReports c o.byte r.code).map (Prod.mk (.channel c)) := by
  cases ha : (s.chan c).active with
  | none =>
    have e : s.endJob c o = s := by simp only [State.endJob, ha]
    obtain ⟨armed, hdrop⟩ := s.alone_dropAll c r
    rw [State.evict, e]
    refine ⟨?_, ?_⟩
    · rw [State.modChan_ptab, State.ptab_dropAll, Channel.patterns, ha]
      rfl
    · rw [State.modChan_outbox, hdrop.reports, State.leavingReports, ha]
      rfl
  | some a =>
    have hn' : a.attach = none := by simpa [Channel.attachment, ha] using hn
    obtain ⟨halone, -, -⟩ := State.alone_evict o r x ha hn'
    refine ⟨?_, ?_⟩
    · rw [State.evict, State.modChan_ptab, State.ptab_dropAll, State.chan_endJob_same o ha, Channel.patterns, ha]
      have h := State.ptab_foldl_dropRef id ((s.chan c).queue.map Job.pattern) (State.ptab_endJob o ha)
      rw [List.map_id] at h
      exact h
    · rw [halone.reports, State.leavingReports, ha, endReports_of_ne ho]

theorem Channel.patterns_shut (ch : Channel) : ch.shut.patterns = ch.patterns := by
  unfold Channel.patterns Channel.shut
  cases ch.active <;> rfl

theorem State.leavingReports_shut (hc : u.chan c = (s.chan c).shut) (hr : u.rpt = s.rpt) (p q : Byte) :
    u.leavingReports c p q = s.leavingReports c p q := by
  rw [State.leavingReports, State.leavingReports, hc, hr]
  cases ha : (s.chan c).active <;> simp [Channel.shut, ha]

/-! ### One after the other -/

theorem State.ptab_forceClose (s : State) (cs : List Chan) : (s.forceClose cs).ptab = s.ptab ∧ (s.forceClose cs).outbox = s.outbox := by
  have shut : ∀ (cs : List Chan) (u : State), (cs.foldl State.shutGate u).ptab = u.ptab ∧ (cs.foldl State.shutGate u).outbox = u.outbox := by
    intro cs
    induction cs with
    | nil => exact fun u => ⟨rfl, rfl⟩
    | cons c cs ih => exact fun u => ih (u.shutGate c)
  have left : ∀ (gs : List GenId) (u : State), (gs.foldl (fun t g => t.lastUserLeft g) u).ptab = u.ptab ∧
      (gs.foldl (fun t g => t.lastUserLeft g) u).outbox = u.outbox := by
    intro gs
    induction gs with
    | nil => exact fun u => ⟨rfl, rfl⟩
    | cons g gs ih => exact fun u => ⟨(ih _).1.trans (u.ptab_lastUserLeft g), (ih _).2.trans (u.outbox_lastUserLeft g)⟩
  obtain ⟨h1, h2⟩ := shut cs s
  unfold State.forceClose State.forEach
  obtain ⟨h3, h4⟩ := left ((cs.foldl State.shutGate s).ordered (s.deserted cs)).1 ((cs.foldl State.shutGate s).ordered (s.deserted cs)).2
  refine ⟨h3.trans ?_, h4.trans ?_⟩
  all_goals rcases (cs.foldl State.shutGate s).ordered_snd (s.deserted cs) with e | e <;> rw [e]
  exacts [h1, h1, h2, h2]

/-- Of the channels that leave, those in `ds` have left, in this order, and those in `cs` are still to leave. -/
structure Leaving (s : State) (all : List Chan) (p q : Byte) (cs ds : List Chan) (u : State) : Prop where
  perm : (cs ++ ds).Perm all
  rpt : u.rpt = s.rpt
  shut : ∀ c ∈ cs, u.chan c = (s.chan c).shut
  absent : ∀ w ∈ u.carb.waitList, w.chan ∉ cs
  outbox : u.outbox = s.outbox ++ ds.flatMap fun c => (s.leavingReports c p q).map (Prod.mk (.channel c))
  ptab : u.ptab = (s.dropRefs (ds.flatMap fun c => (s.chan c).patterns)).ptab

theorem State.ptab_dropRefs (h : u.ptab = t.ptab) (ps : List PatId) : (u.dropRefs ps).ptab = (t.dropRefs ps).ptab := by
  have k := State.ptab_foldl_dropRef id ps h
  rw [List.map_id] at k
  exact k

/-- The channels leave in some order (R104, R128). -/
theorem State.evictAll_gives (hn : cs.Nodup) (ho : o ≠ .completed) : ∃ ds : List Chan, ds.Perm cs ∧
    (s.evictAll cs o r x).outbox = s.outbox ++ ds.flatMap (fun c => (s.leavingReports c o.byte r.code).map (Prod.mk (.channel c))) ∧
    (s.evictAll cs o r x).ptab = (s.dropRefs (ds.flatMap fun c => (s.chan c).patterns)).ptab := by
  obtain ⟨-, hshut, habsent⟩ := s.forceClose_closes cs
  obtain ⟨hptab, hout⟩ := s.ptab_forceClose cs
  obtain ⟨ds, k⟩ := State.forEach_induction (s := s.forceClose cs) (f := fun c t => t.evict c o r x)
    (P := fun cs' u => ∃ ds, Leaving s cs o.byte r.code cs' ds u) hn
    (fun cs' n hp => ⟨[], by rw [List.append_nil]; exact hp, (effects_forceClose s cs).rpt, fun c hc => hshut c (hp.mem_iff.1 hc),
      fun w hw hc => habsent w hw (hp.mem_iff.1 hc), hout.trans (List.append_nil _).symm, hptab⟩)
    (by
      rintro c cs' u hnd ⟨ds, k⟩
      have hc := k.shut c List.mem_cons_self
      have hatt : (u.chan c).attachment = none := by rw [hc, Channel.shut_attachment]
      obtain ⟨e1, e2, -⟩ := State.evict_of_shut hatt (fun w hw e => k.absent w hw (e ▸ List.mem_cons_self)) o r x
      obtain ⟨g1, g2⟩ := State.evict_gives (r := r) (x := x) hatt ho
      obtain ⟨hcs, -⟩ := List.nodup_cons.1 hnd
      refine ⟨ds ++ [c], ?_, (works_evict c u o r x).rpt.trans k.rpt, fun d hd => ?_, fun w hw hd => ?_, ?_, ?_⟩
      · rw [← List.append_assoc]
        exact (List.perm_append_singleton c _).trans k.perm
      · rw [e2 d (by rintro rfl; exact hcs hd), k.shut d (List.mem_cons_of_mem c hd)]
      · rw [e1] at hw
        exact k.absent w hw (List.mem_cons_of_mem c hd)
      · rw [g2, k.outbox, State.leavingReports_shut hc k.rpt, List.flatMap_append, List.append_assoc]
        simp
      · rw [g1, hc, Channel.patterns_shut, State.ptab_dropRefs k.ptab, List.flatMap_append]
        simp [State.dropRefs, List.foldl_append])
  exact ⟨ds, k.perm, k.outbox, k.ptab⟩

end Sys2Proof.Machine
end

section
/-! PROOFS. Several channels leave at one moment: what becomes of the references and of the reports at the end of the event (R8, R128). -/

namespace Sys2Proof.Machine

variable {s t u : State} {c d : Chan} {cs ds : List Chan} {goes : Chan → Bool} {f : Chan → List Report} {others : List Report} {q : Producer}

/-- The references of the channels that have left are given up. -/
theorem State.releases_patterns (hp : ds.Perm cs) (h : u.ptab = (s.dropRefs (ds.flatMap fun c => (s.chan c).patterns)).ptab) :
    s.Releases u fun p => (cs.map fun c => (s.chan c).naming p).sum := by
  refine (s.releases_dropRefs _).congr h fun p => ?_
  have e : List.count p ∘ (fun c => (s.chan c).patterns) = fun c => (s.chan c).naming p := funext fun c => Channel.count_patterns _ p
  rw [List.count_flatMap, e, (hp.map _).sum_eq]

theorem flatMap_filter_eq {α β : Type} (l : List α) (p : α → Bool) (f : α → List β) :
    (l.filter p).flatMap f = l.flatMap fun x => if p x then f x else [] := by
  induction l with
  | nil => rfl
  | cons x l ih =>
    cases h : p x <;> simp [h, ih]

/-- What one channel has made, of what several have made. -/
theorem filter_made (hn : ds.Nodup) (c : Chan) :
    (ds.flatMap fun d => (f d).map (Prod.mk (Producer.channel d))).filter (fun y => y.1 == .channel c)
      = if c ∈ ds then (f c).map (Prod.mk (.channel c)) else [] := by
  induction ds with
  | nil => rfl
  | cons d ds ih =>
    obtain ⟨hd, hn⟩ := List.nodup_cons.1 hn
    have hown : ∀ e, ((f d).map (Prod.mk (Producer.channel d))).filter (fun y => y.1 == .channel e)
        = if d = e then (f d).map (Prod.mk (.channel d)) else [] := fun e => by
      split
      · next h =>
        rw [List.filter_eq_self]
        intro y hy
        obtain ⟨r, -, rfl⟩ := List.mem_map.1 hy
        simp [h]
      · next h =>
        rw [List.filter_eq_nil_iff]
        intro y hy
        obtain ⟨r, -, rfl⟩ := List.mem_map.1 hy
        simp [h]
    rw [List.flatMap_cons, List.filter_append, hown, ih hn]
    by_cases h : d = c
    · subst h
      simp [hd]
    · simp [h, Ne.symm h]

/-- RPT takes all that the channels have made, each channel's reports in its order, among the others (R128). -/
theorem State.merges (hr : u.rpt = s.rpt) (hn : ds.Nodup) (hp : ds.Perm ((List.finRange 8).filter goes))
    (ho : u.outbox = (ds.flatMap fun c => (f c).map (Prod.mk (.channel c))) ++ others.map (Prod.mk q))
    (hq : ∀ c, q ≠ .channel c) (hf : ∀ c, ∀ y ∈ f c, y.source = some c ∧ y.kind ≠ .sense) (hothers : ∀ y ∈ others, y.source = none) :
    s.rpt.Merges u.settle.rpt (fun c => if goes c then f c else []) others := by
  obtain ⟨ys, e, hys, hfilter⟩ := u.settle_rpt_merges
  have hsnd : ∀ (l : List Report) (z : Producer), (l.map (Prod.mk z)).map Prod.snd = l := fun l z => by
    rw [List.map_map]
    exact List.map_id l
  refine ⟨ys.map Prod.snd, hr ▸ e, ?_, fun c => ?_⟩
  · refine (hys.map Prod.snd).trans ?_
    rw [ho, List.map_append, hsnd, List.map_flatMap, ← flatMap_filter_eq]
    simp only [hsnd]
    exact (hp.flatMap_right f).append_right others
  · have hmatch : ∀ y ∈ ys, (decide (y.2.source = some c) && decide (y.2.kind ≠ .sense)) = (y.1 == .channel c) := by
      intro y hy
      have hy := hys.mem_iff.1 hy
      rw [ho, List.mem_append, List.mem_flatMap] at hy
      rcases hy with ⟨d, -, hd⟩ | hy
      · obtain ⟨z, hz, rfl⟩ := List.mem_map.1 hd
        obtain ⟨h1, h2⟩ := hf d z hz
        rw [Bool.eq_iff_iff]
        simp [h1, h2]
      · obtain ⟨z, hz, rfl⟩ := List.mem_map.1 hy
        simp [hothers z hz, hq c]
    rw [List.filter_map]
    have e' : ys.filter ((fun r : Report => decide (r.source = some c) && decide (r.kind ≠ .sense)) ∘ Prod.snd)
        = ys.filter fun y => y.1 == .channel c := List.filter_congr hmatch
    rw [e', hfilter, ho, List.filter_append, filter_made hn]
    have hnone : (others.map (Prod.mk q)).filter (fun y => y.1 == .channel c) = [] := by
      rw [List.filter_eq_nil_iff]
      intro y hy
      obtain ⟨z, -, rfl⟩ := List.mem_map.1 hy
      simpa using hq c
    have hc : c ∈ ds ↔ goes c = true := by rw [hp.mem_iff]; simp
    rw [hnone, List.append_nil]
    by_cases h : goes c = true
    · rw [if_pos (hc.2 h), hsnd]
      exact (if_pos h).symm
    · rw [if_neg (mt hc.1 h)]
      exact (if_neg h).symm

theorem State.leavingReports_source (s : State) (c : Chan) (p r : Byte) :
    ∀ y ∈ s.leavingReports c p r, y.source = some c ∧ y.kind ≠ .sense := by
  intro y hy
  rw [State.leavingReports, List.mem_append] at hy
  rcases hy with hy | hy
  · cases ha : (s.chan c).active with
    | none => simp [ha] at hy
    | some a =>
      obtain rfl : y = _ := by simpa [ha] using hy
      simp
  · obtain ⟨j, -, rfl⟩ := List.mem_map.1 hy
    simp

end Sys2Proof.Machine
end

section
/-! PROOFS. CH_DISABLE and LEASE_EXPIRY (R93, R103, R104, R142, R143): the statements. -/

namespace Sys2Proof.Machine

variable {s t u : State} {c d : Chan} {cs : List Chan} {goes : Chan → Bool} {o : JobOutcome} {r : DropReason} {x : ChState} {mask : Byte} {v : Via}

theorem State.ForceClosed.congr (h : s.ForceClosed t goes) (hcarb : u.carb = t.carb) (hch : ∀ c, goes c = false → u.chan c = t.chan c) :
    s.ForceClosed u goes := by
  have hg : ∀ g, u.gen g = t.gen g := State.gen_congr hcarb
  have hw : u.carb.waitList = t.carb.waitList := congrArg Carriers.waitList hcarb
  refine ⟨(congrArg Carriers.classes hcarb).trans h.classes, fun g hn => (hg g).trans (h.kept g hn),
    fun g k p b hd hr hb => (hg g).trans (h.drains g k p b hd hr hb), fun g hd hb => ?_, fun hl => ?_, fun hb => hw.trans (h.waits hb),
    fun g w rest hd hb ho hl => ?_, fun c hc => ?_⟩
  · rw [hg, hw]
    exact h.frees g hd hb
  · obtain ⟨h1, h2⟩ := h.idle hl
    exact ⟨hw.trans h1, fun g hd hb => (hg g).trans (h2 g hd hb)⟩
  · obtain ⟨h1, h2, h3⟩ := h.grants g w rest hd hb ho hl
    refine ⟨(hg g).trans h1, hw.trans h2, fun y hy hc hst => ?_⟩
    have hy' : y ∈ s.waitersLeft goes := hl ▸ hy
    rw [hch y.chan (by simpa [State.waitersLeft] using (List.mem_filter.1 hy').2), h3 y hy hc hst]
  · rw [hch c hc]
    rcases h.others c hc with h1 | ⟨g, w, h1, h2, h3, h4, h5, h6⟩
    exacts [.inl h1, .inr ⟨g, w, h1, h2, h3, h4, (hg g).trans h5, h6⟩]

/-- Channels that leave at one moment: their records, the carriers, their references and their reports, up to the end of the event. -/
theorem State.evictAll_closes (s : State) (goes : Chan → Bool) (o : JobOutcome) (r : DropReason) (x : ChState) :
    (∀ c, goes c = true → (s.evictAll ((List.finRange 8).filter goes) o r x).chan c = Channel.empty x (s.chan c).config) ∧
      s.ForceClosed (s.evictAll ((List.finRange 8).filter goes) o r x) goes := by
  have hmem : ∀ c, c ∈ (List.finRange 8).filter goes ↔ goes c = true := fun c => by simp
  have hgoes : (fun c => decide (c ∈ (List.finRange 8).filter goes)) = goes := funext fun c => by
    rw [Bool.eq_iff_iff, decide_eq_true_eq, hmem]
  obtain ⟨hclosed, -, -⟩ := s.forceClose_closes ((List.finRange 8).filter goes)
  obtain ⟨hcarb, hgone, hstay⟩ := s.evictAll_leaves ((List.finRange 8).filter goes) o r x
  rw [hgoes] at hclosed
  exact ⟨fun c hc => hgone c ((hmem c).2 hc), hclosed.congr hcarb fun c hc => hstay c (by rw [hmem, hc]; exact Bool.false_ne_true)⟩

/-! ### CH_DISABLE -/

theorem Channel.hasJob_iff {ch : Channel} : ch.hasJob = true ↔ ch.active ≠ none ∨ ch.queue ≠ [] := by
  simp [Channel.hasJob, Option.isSome_iff_ne_none]

theorem disableIdle_busy (h : ∃ c : Chan, mask.getLsbD c.val = true ∧ ((s.chan c).active ≠ none ∨ (s.chan c).queue ≠ [])) :
    disableIdle mask s = refuse s .badState := by
  obtain ⟨c, hc, hj⟩ := h
  exact if_pos (List.any_eq_true.2 ⟨c, mem_maskChans.2 hc, Channel.hasJob_iff.2 hj⟩)

theorem disableIdle_free (h : ¬∃ c : Chan, mask.getLsbD c.val = true ∧ ((s.chan c).active ≠ none ∨ (s.chan c).queue ≠ [])) :
    disableIdle mask s = answerOk (s.mapChans fun c ch =>
      if mask.getLsbD c.val && decide (ch.state ≠ .off) then Channel.empty .off ch.config else ch) [s.enabledMask mask] := by
  refine if_neg fun hany => h ?_
  obtain ⟨c, hc, hj⟩ := List.any_eq_true.1 hany
  exact ⟨c, mem_maskChans.1 hc, Channel.hasJob_iff.1 hj⟩

/-- A line of a channel that is OFF is released. -/
theorem State.outs_released (h : (u.settle.chan c).state = .off) : u.settle.outs[c] = .released := by
  rw [(State.settled_settle u).outs_of_level (State.level_of_off h), LineConfig.drive_released]

/-- Settles O34: without force the free channels' records are emptied, with force the named channels' gates close before each leaves. -/
theorem disableDecides : Obligations.DisableDecides := by
  intro s v mask hs hmask off taken busy
  refine ⟨fun hx => ?idle, fun hx => ?force⟩
  case idle =>
    obtain ⟨t, ht⟩ := exec_next (i := .chDisable v mask 0x00#8) rfl trivial hx
    have hown : ownerChDisable mask 0x00#8 s = disableIdle mask s := if_neg hmask
    refine ⟨t, ht, fun h => refused_of_exec (i := .chDisable v mask 0x00#8) hs rfl trivial hx ht (hown.trans (disableIdle_busy h)), fun h => ?_⟩
    obtain ⟨rfl, hans⟩ := answered_of_exec (i := .chDisable v mask 0x00#8) rfl trivial hx ht (hown.trans (disableIdle_free h)) rfl
    generalize hu : (s.mapChans fun c ch => if mask.getLsbD c.val && decide (ch.state ≠ .off) then Channel.empty .off ch.config else ch) = u at *
    have hch : ∀ c : Chan, u.settle.chan c = if mask.getLsbD c.val ∧ (s.chan c).state ≠ .off then off (s.chan c) else s.chan c := fun c => by
      rw [State.chan_settle, ← hu, State.chan_mapChans]
      simp only [Bool.and_eq_true, decide_eq_true_eq]
      rfl
    refine ⟨hch, fun c hc => State.outs_released ?_, hans _ (hs.keepsAllBut (by rw [← hu]; rfl) (by rw [← hu]; rfl)
      (fun b hb _ _ _ => ?_) (by simp) (fun _ => ?_) fun _ => ?_)⟩
    · rw [hch]
      by_cases h : (s.chan c).state = .off
      · rw [if_neg fun k => k.2 h, h]
      · rw [if_pos ⟨hc, h⟩]
    · rw [← hu]
      cases b <;> first | rfl | simp at hb
    · rw [← hu]
      exact ⟨rfl, hs.outbox⟩
    · rw [← hu]
      exact ⟨rfl, congrArg oneProducer hs.outbox⟩
  case force =>
    obtain ⟨t, ht⟩ := exec_next (i := .chDisableForce v mask) rfl trivial hx
    generalize hgoes : (fun c : Chan => mask.getLsbD c.val && decide ((s.chan c).state ≠ .off)) = goes
    have hcs : ((maskChans mask).filter fun c => decide ((s.chan c).state ≠ .off)) = (List.finRange 8).filter goes := by
      rw [maskChans, List.filter_filter, ← hgoes]
      exact List.filter_congr fun c _ => Bool.and_comm _ _
    have hown : ownerChDisable mask 0x01#8 s = answerOk (s.evictAll ((List.finRange 8).filter goes) .disabled .disabled .off) [s.enabledMask mask] := by
      rw [← hcs]
      exact if_neg hmask
    have heff := effects_evictAll ((List.finRange 8).filter goes) .disabled .disabled .off s
    obtain ⟨hgone, hclosed⟩ := s.evictAll_closes goes .disabled .disabled .off
    obtain ⟨ds, hp, hout, hptab⟩ := State.evictAll_gives (s := s) (o := .disabled) (r := .disabled) (x := .off)
      ((List.nodup_finRange 8).filter goes) (by simp)
    generalize s.evictAll ((List.finRange 8).filter goes) .disabled .disabled .off = u at *
    obtain ⟨rfl, hans⟩ := answered_of_exec (i := .chDisableForce v mask) rfl trivial hx ht hown heff.link
    have hnd : ds.Nodup := hp.nodup_iff.2 ((List.nodup_finRange 8).filter goes)
    have hmerge := State.merges (s := s) (u := u) (q := .lease) (others := []) heff.rpt hnd hp
      (by rw [hout, hs.outbox, List.nil_append, List.map_nil, List.append_nil]; rfl) (by simp) (s.leavingReports_source · 0x09#8 0x06#8) (by simp)
    refine ⟨_, ht, fun c hc hst => ?_, ?_⟩
    · have e : u.settle.chan c = off (s.chan c) := (State.chan_settle u c).trans (hgone c (by simp [← hgoes, hc, hst]))
      exact ⟨e, State.outs_released (by rw [e])⟩
    · intro goes'
      refine ⟨hclosed.congr (State.settle_carb u) fun c _ => State.chan_settle u c, (State.releases_patterns hp hptab).settle, hmerge,
        hans _ (hs.keepsAllBut heff.clock heff.pending (fun b hb _ _ _ => ?_) (by simp) (by simp) (by simp))⟩
      cases b with
      | jobCounter => exact heff.nextJob
      | sense => exact heff.sense
      | lease => exact heff.lease
      | link => exact heff.link
      | _ => simp at hb

/-! ### LEASE_EXPIRY -/

/-- The state in which the lease is EXPIRED and no channel has left yet (R142). -/
def State.leaseExpired (s : State) : State :=
  { s with lease := { s.lease with state := .expired } }

theorem State.expireLease_eq (s : State) : s.expireLease
    = (s.leaseExpired.evictAll ((List.finRange 8).filter fun c => (s.chan c).goesSafe) .safe .safe .safe).report
        .lease .leaseExpired none 0#16 (maskOf fun c => (s.chan c).goesSafe) 0x00#8 := rfl

/-- CARB does not read the lease. -/
theorem State.ForceClosed.of_leaseExpired (h : s.leaseExpired.ForceClosed t goes) : s.ForceClosed t goes :=
  ⟨h.classes, h.kept, h.drains, h.frees, h.idle, h.waits, h.grants, h.others⟩

/-- Settles O46: the flagged channels leave as at a CH_DISABLE with force, and the LEASE_EXPIRED report joins theirs. -/
theorem leaseExpires : Obligations.LeaseExpires := by
  intro s n hs hl goes
  obtain ⟨t, ht, hearly, hdue⟩ := runEvent_next s.lease.due State.expireLease s
  refine ⟨t, ht, fun hn => hearly (by simp [LeaseTimer.due, hl, hn]), fun hn => ?_⟩
  obtain rfl := hdue (by simp [LeaseTimer.due, hl, hn])
  have heff := effects_expireLease s
  obtain ⟨hgone, hclosed⟩ := s.leaseExpired.evictAll_closes goes .safe .safe .safe
  obtain ⟨ds, hp, hout, hptab⟩ := State.evictAll_gives (s := s.leaseExpired) (o := .safe) (r := .safe) (x := .safe)
    ((List.nodup_finRange 8).filter goes) (by simp)
  have hrpt := (effects_evictAll ((List.finRange 8).filter goes) .safe .safe .safe s.leaseExpired).rpt
  have e : s.expireLease = (s.leaseExpired.evictAll ((List.finRange 8).filter goes) .safe .safe .safe).report
      .lease .leaseExpired none 0#16 (maskOf goes) 0x00#8 := s.expireLease_eq
  generalize s.leaseExpired.evictAll ((List.finRange 8).filter goes) .safe .safe .safe = w at *
  generalize hu : s.expireLease = u at *
  have hptab' : u.ptab = w.ptab := by rw [e]; rfl
  have hcarb' : u.carb = w.carb := by rw [e]; rfl
  have hch' : ∀ c, u.chan c = w.chan c := fun c => by rw [e]; rfl
  have hnd : ds.Nodup := hp.nodup_iff.2 ((List.nodup_finRange 8).filter goes)
  have hmerge := State.merges (s := s) (u := u) (q := .lease)
    (others := [⟨.leaseExpired, s.rpt.partTime, none, 0#16, maskOf goes, 0x00#8⟩]) heff.rpt hnd hp
    (by
      have ho : u.outbox = w.outbox ++ [(.lease, ⟨.leaseExpired, w.rpt.partTime, none, 0#16, maskOf goes, 0x00#8⟩)] := by rw [e]; rfl
      have hs' : s.leaseExpired.outbox = [] := hs.outbox
      have hr' : w.rpt = s.rpt := hrpt
      rw [ho, hout, hs', List.nil_append, hr']
      rfl)
    (by simp) (s.leavingReports_source · 0x08#8 0x05#8) (by simp)
  refine ⟨(State.settle_lease u).trans heff.lease, fun c hc => ?_,
    (hclosed.congr ((State.settle_carb u).trans hcarb') fun c _ => (State.chan_settle u c).trans (hch' c)).of_leaseExpired,
    (State.releases_patterns (s := s.leaseExpired) hp (hptab'.trans hptab)).settle, hmerge,
    hs.keepsAllBut heff.clock heff.pending (fun b hb _ _ _ => ?_) (by simp) (by simp) (by simp), State.settled_settle _⟩
  · have hc' : u.settle.chan c = Channel.empty .safe (s.chan c).config := ((State.chan_settle u c).trans (hch' c)).trans (hgone c hc)
    refine ⟨hc', ?_⟩
    rw [(State.settled_settle u).outs_of_level (State.level_of_safe (.inl (by rw [hc']; rfl))), hc']
    refine congrArg _ ?_
    change (s.chan c).config.safeLevel.level = _
    cases (s.chan c).config.safeLevel <;> rfl
  · cases b with
    | jobCounter => exact heff.nextJob
    | sense => exact heff.sense
    | link => exact heff.link
    | _ => simp at hb

end Sys2Proof.Machine
end
